-- ==== Sys2Proof/Word.lean ====
section
/-! DEFINITION. The byte, the word and the byte-indexed table of the KNOB AES-256 core (00_scope.md R10, R14, R17). -/

namespace Sys2Proof

/-- A byte: 8 bits, a field element of GF(2^8) (R10, R18). -/
abbrev Byte := BitVec 8

/-- A word: 32 bits, the width of every register and of a command (R10, R11). -/
abbrev Word := BitVec 32

/-- A substitution table: 256 entries of 8 bits, indexed by a byte (R10, R27, R28). -/
abbrev Table := Vector Byte 256

/-- The 4x4 byte matrix of the cipher state, by rows: `m[r][c]` is S[r][c] (R10, R25). -/
abbrev Block := Vector (Vector Byte 4) 4

end Sys2Proof
end

