-- ==== Sys2Proof/Syntax.lean ====
section
/-! DEFINITION. The commands of the core: one constructor for each row of spec/opcode_table.json (30_encoding.md R97),
and the field format every command word has (R90). -/

namespace Sys2Proof

/-- A command (R97). The operands are the command word's fields, as many bits as the field has (R92 to R94). -/
inductive Instr where
  | nop
  | expandKey
  | encryptBlock
  | decryptBlock
  | genTables
  | sboxLookup (x : Byte)
  | invSboxLookup (x : Byte)
  | gfMul (x c : Byte)
  | loadState
  | unloadState
  | subBytes
  | invSubBytes
  | shiftRows
  | invShiftRows
  | mixColumns
  | invMixColumns
  | addRoundKey (rnd : BitVec 4)
  deriving DecidableEq, Repr

/-- The four operand fields of a command word; RSV0 and RSV1 are not among them (R90). The engine's latched fields
LOP, LRND, LX, LC have the same shape (10_state.md R42). -/
structure CmdFields where
  /-- OP, bits 4:0 -/
  op : BitVec 5
  /-- RND, bits 11:8 -/
  rnd : BitVec 4
  /-- X, bits 23:16 -/
  x : Byte
  /-- C, bits 31:24 -/
  c : Byte
  deriving DecidableEq, Repr

end Sys2Proof
end

