-- ==== Sys2Proof/Machine/State.lean ====
section
/-! DEFINITION. The state of the core (10_state.md R20), the host's pending operations and the model's own fields; the
reasons a step can stop; the state right after reset (R50). -/

namespace Sys2Proof.Machine

/-- Error codes that are ever written to STATUS.ERR (60_exceptions.md R260; codes 5..15 are "never written"). -/
inductive ErrorCode where
  | none
  | invalidArgument
  | uninitializedState
  | contractViolation
  | illegalCommand
  deriving DecidableEq, Repr

/-- The flags and the code of the STATUS register (R30). The register's other bits hold nothing and read 0. -/
structure Status where
  /-- bit 0 -/
  busy : Bool
  /-- bit 1 -/
  done : Bool
  /-- bit 2 -/
  keyValid : Bool
  /-- bit 3 -/
  sboxValid : Bool
  /-- bit 4 -/
  invValid : Bool
  /-- bit 5 -/
  errSticky : Bool
  /-- bit 6 -/
  ovr : Bool
  /-- bits 11:8 -/
  err : ErrorCode
  deriving DecidableEq, Repr

/-- The phases FSM.PHASE can show (R41; codes 14 and 15 are "never shown"). -/
inductive Phase where
  | idle | genFwd | genInv | load | ark | sb | sr | mc | isb | isr | imc | unload | kexp | prim
  deriving DecidableEq, Repr

/-- The FSM register (R40). Its other bits hold nothing and read 0. -/
structure Fsm where
  /-- bits 3:0 -/
  phase : Phase
  /-- bits 11:8 -/
  round : BitVec 4
  /-- bits 21:16 -/
  kidx : BitVec 6
  /-- bits 28:24 -/
  op : BitVec 5
  deriving DecidableEq, Repr

/-- What a micro-step does (43_driver.md R223, R224; 10_state.md R41). -/
inductive MicroOp where
  | genFwd
  | genInv
  | load
  | ark (n : Fin 15)
  | sb
  | sr
  | mc
  | isb
  | isr
  | imc
  | unload
  | kexp (i : Fin 60)
  | prim
  deriving DecidableEq, Repr

/-- A micro-step of the queue Q, with the round number it carries, if it carries one (43_driver.md R228). -/
structure MicroStep where
  op : MicroOp
  round : Option (BitVec 4)
  deriving DecidableEq, Repr

/-- One operation of the host: MemRead(addr, n) and MemWrite(addr, n, v) (20_memory.md R64), the polling loop `wait`
(30_encoding.md R106), `check` (R108), and the reset event (70_reset_and_hazards.md R300). -/
inductive HostOp where
  | read (addr bytes : Nat)
  | write (addr bytes : Nat) (value : Word)
  /-- `gaps`: how many micro-steps the engine takes after each poll that found BUSY = 1, as many entries as wanted, then
  the rest of Q. Nothing else comes between the polls (DESIGN CHOICE, log entry 14). -/
  | wait (gaps : List Nat)
  | check
  | reset
  deriving DecidableEq, Repr

/-- A host operation still to come, and how many micro-steps the engine takes before it (43_driver.md R225; log
entry 5). -/
structure HostEvent where
  delay : Nat
  op : HostOp
  deriving DecidableEq, Repr

/-- The state of the machine. The fields from `key` to `latch` are the spec's (10_state.md R20), the rest the model's
own (log entries 3, 4, 5 and 16). -/
structure State where
  /-- KEY0..KEY7 (R22) -/
  key : Vector Word 8
  /-- DIN0..DIN3 (R23) -/
  din : Vector Word 4
  /-- DOUT0..DOUT3 (R24) -/
  dout : Vector Word 4
  /-- the state matrix S (R25) -/
  mat : Block
  /-- W0..W59 (R26) -/
  w : Vector Word 60
  /-- SBOX (R27) -/
  sbox : Table
  /-- INV_SBOX (R28) -/
  invSbox : Table
  /-- STATUS (R30) -/
  status : Status
  /-- RESULT (R39) -/
  result : Word
  /-- FSM (R40) -/
  fsm : Fsm
  /-- Q (R42), head first -/
  queue : List MicroStep
  /-- LOP, LRND, LX, LC (R42) -/
  latch : CmdFields
  /-- BASE / 4096 (00_scope.md R12) -/
  baseBlock : Nat
  /-- the host operations still to come, in issue order (20_memory.md R74) -/
  host : List HostEvent
  /-- address and value of each read the host has performed, newest first -/
  readLog : List (Nat × Word)
  /-- how many free values have been drawn -/
  draw : Nat
  deriving DecidableEq, Repr

/-- Why a run stops. -/
inductive Fault where
  /-- BusError(addr): an access that is not an aligned 32-bit access (20_memory.md R64, R65). Raised by a host read or
  write. Safe: the spec says a model represents it as a fault of the host's access. -/
  | busError (addr : Nat)
  /-- An access outside BASE .. BASE + 0xFFF: not this core's (R60). Raised by a host read or write. Safe: the model
  stops where the spec gives no behaviour (log entry 7). -/
  | outsideWindow (addr : Nat)
  /-- The assertion of `check` does not hold (30_encoding.md R108). Raised by the host operation `check`. Safe: the
  host's program is at fault, the core goes on (log entry 15). -/
  | checkFailed (err : ErrorCode)
  deriving DecidableEq, Repr

/-- Why an instruction has no meaning. -/
inductive Refusal where
  /-- The instruction is not modelled. Raised by no instruction of this model. Safe. -/
  | notModelled (mnemonic : String)
  deriving DecidableEq, Repr

/-- The machine right after reset (R50): every register 0, Q empty, the flags 0. The tables' contents are unspecified
there; this model names 0x00 (log entry 1). The model's own fields are named by log entries 3, 4, 5 and 16. -/
def State.reset : State where
  key := Vector.replicate 8 0
  din := Vector.replicate 4 0
  dout := Vector.replicate 4 0
  mat := Vector.replicate 4 (Vector.replicate 4 0)
  w := Vector.replicate 60 0
  sbox := Vector.replicate 256 0
  invSbox := Vector.replicate 256 0
  status := ⟨false, false, false, false, false, false, false, .none⟩
  result := 0
  fsm := ⟨.idle, 0, 0, 0⟩
  queue := []
  latch := ⟨0, 0, 0, 0⟩
  baseBlock := 0
  host := []
  readLog := []
  draw := 0

end Sys2Proof.Machine
end

