-- ==== Sys2Proof/Machine/Operands.lean ====
section
/-! DEFINITION. The forms an operand takes: bytes in words (00_scope.md R17), cells of the state matrix (10_state.md
R25), entries of a table, multiplier constants (40_gf_sbox.md R124), round keys, and the registers of the window
(20_memory.md R61). -/

namespace Sys2Proof.Machine

/-! ## Bytes and words (R17) -/

/-- `pack(b0, b1, b2, b3)`: b0 is the most significant byte (R17). -/
def pack (b0 b1 b2 b3 : Byte) : Word := b0 ++ b1 ++ b2 ++ b3

/-- `byte(w, k)`: byte 0 is the most significant (R17). -/
def byteOf (w : Word) (k : Fin 4) : Byte := (w >>> (8 * (3 - k.val))).setWidth 8

/-- `zext_32` of a byte (R15). -/
def zextByte (b : Byte) : Word := b.setWidth 32

/-- Register k of a 16-byte block: pack(b[4k..4k+3]) (20_memory.md R68). -/
def blockWord (b : Vector Byte 16) (k : Fin 4) : Word :=
  pack b[4 * k.val] b[4 * k.val + 1] b[4 * k.val + 2] b[4 * k.val + 3]

/-- KEYk of a 32-byte key: pack(key[4k..4k+3]) (R68). -/
def keyWord (b : Vector Byte 32) (k : Fin 8) : Word :=
  pack b[4 * k.val] b[4 * k.val + 1] b[4 * k.val + 2] b[4 * k.val + 3]

/-! ## The state matrix (R25, R180) -/

/-- S[r][c]. -/
def cell (m : Block) (r c : Fin 4) : Byte := (m[r])[c]

/-- The matrix with S[r][c] = f r c for all r and c. -/
def blockOf (f : Fin 4 → Fin 4 → Byte) : Block := Vector.ofFn fun r => Vector.ofFn fun c => f r c

/-! ## Tables (R27, R28) -/

/-- T[x]. -/
def look (t : Table) (x : Byte) : Byte := t[x.toNat]'x.isLt

/-- T[x] <- v. -/
def put (t : Table) (x v : Byte) : Table := t.set x.toNat v x.isLt

/-! ## Multiplier constants (R94, R124) -/

/-- The fixed set {0, 1, 2, 3, 9, 11, 13, 14} of multiplier constants. -/
inductive GfConst where
  | c0 | c1 | c2 | c3 | c9 | c11 | c13 | c14
  deriving DecidableEq, Repr

/-- The constant a byte names by its integer value; none outside the set (R94). -/
def gfConstOf (c : Byte) : Option GfConst :=
  match c.toNat with
  | 0 => some .c0
  | 1 => some .c1
  | 2 => some .c2
  | 3 => some .c3
  | 9 => some .c9
  | 11 => some .c11
  | 13 => some .c13
  | 14 => some .c14
  | _ => none

/-! ## Round keys (R26, R195) -/

/-- The word of round key n for column c, W[4n + c]. -/
def roundKeyWord (w : Vector Word 60) (n : Fin 15) (c : Fin 4) : Word := w[4 * n.val + c.val]

/-! ## The register window (20_memory.md R61) -/

/-- The registers of the window. -/
inductive Reg where
  | key (k : Fin 8)
  | din (k : Fin 4)
  | dout (k : Fin 4)
  | cmd
  | status
  | result
  | fsm
  | w (i : Fin 60)
  deriving DecidableEq, Repr

/-- The register's offset from BASE (R61). -/
def regOffset : Reg → Nat
  | .key k => 0x000 + 4 * k.val
  | .din k => 0x020 + 4 * k.val
  | .dout k => 0x030 + 4 * k.val
  | .cmd => 0x040
  | .status => 0x044
  | .result => 0x048
  | .fsm => 0x04C
  | .w i => 0x100 + 4 * i.val

/-- The register at an offset that is a multiple of 4; none at a reserved offset (R61, R63). -/
def regAt (off : Nat) : Option Reg :=
  if off < 0x020 then some (.key (Fin.ofNat 8 (off / 4)))
  else if off < 0x030 then some (.din (Fin.ofNat 4 ((off - 0x020) / 4)))
  else if off < 0x040 then some (.dout (Fin.ofNat 4 ((off - 0x030) / 4)))
  else if off = 0x040 then some .cmd
  else if off = 0x044 then some .status
  else if off = 0x048 then some .result
  else if off = 0x04C then some .fsm
  else if off < 0x100 then none
  else if off < 0x1F0 then some (.w (Fin.ofNat 60 ((off - 0x100) / 4)))
  else none

/-- BASE, a multiple of 4096 (R60). -/
def base (s : State) : Nat := 4096 * s.baseBlock

/-- The address of a register in the host's address space. -/
def regAddr (s : State) (r : Reg) : Nat := base s + regOffset r

end Sys2Proof.Machine
end

