-- ==== Sys2Proof/Machine/Gf.lean ====
section
/-! DEFINITION. GF(2^8) arithmetic, the constant multiplier and the S-box generator, as pure functions (40_gf_sbox.md
R120 to R140). -/

namespace Sys2Proof.Machine

/-! ## Field arithmetic (R120 to R123) -/

/-- Addition of two field elements (R120). -/
def gfadd (a b : Byte) : Byte := a ^^^ b

/-- Multiplication by 2: shift left; if the high bit was set, xor 0x1B (R121). -/
def xtime (b : Byte) : Byte := if b.getLsbD 7 then (b <<< 1) ^^^ 0x1B else b <<< 1

/-- The loop of fmul, n iterations to go: bit 0 of b is the bit the iteration tests (R122). -/
def fmulLoop : Nat → Byte → Byte → Byte → Byte
  | 0, _, _, r => r
  | n + 1, a, b, r => fmulLoop n (xtime a) (b >>> 1) (if b.getLsbD 0 then r ^^^ a else r)

/-- General field multiplication, shift and add (R122). -/
def fmul (a b : Byte) : Byte := fmulLoop 8 a b 0

/-! ## Constant multiplier (R124) -/

/-- gmul(x, c), by xors of repeated doublings (R124, R126). -/
def gmul (x : Byte) (c : GfConst) : Byte :=
  let x2 := xtime x
  let x4 := xtime x2
  let x8 := xtime x4
  match c with
  | .c0 => 0
  | .c1 => x
  | .c2 => x2
  | .c3 => x2 ^^^ x
  | .c9 => x8 ^^^ x
  | .c11 => x8 ^^^ x2 ^^^ x
  | .c13 => x8 ^^^ x4 ^^^ x
  | .c14 => x8 ^^^ x4 ^^^ x2

/-! ## Affine transform and generator (R129 to R134) -/

/-- rotl8(b, s) (00_scope.md R15). -/
def rotl8 (b : Byte) (s : Nat) : Byte := (b <<< s) ||| (b >>> (8 - s))

/-- The affine transform (R129). -/
def affine (b : Byte) : Byte := b ^^^ rotl8 b 1 ^^^ rotl8 b 2 ^^^ rotl8 b 3 ^^^ rotl8 b 4 ^^^ 0x63

/-- The loop of GenSbox, at most n iterations to go (R133). It tests at its end, so the entry of p = 0x01 is written
before it stops. -/
def genSboxLoop : Nat → Byte → Byte → Table → Table
  | 0, _, _, t => t
  | n + 1, p, q, t =>
    let p' := p ^^^ xtime p
    let q' := fmul q 0xF6
    let t' := put t p' (affine q')
    if p' = 1 then t' else genSboxLoop n p' q' t'

/-- GenSbox(): the forward table (R133). The cycle of p has length 255 (R123), so the loop stops by its test in its
255th iteration (log entry 23); every entry is written. -/
def genSbox : Table := put (genSboxLoop 255 1 1 (Vector.replicate 256 0)) 0 0x63

/-- GenInv(T): I[T[x]] <- x for x in 0x00..0xFF (R138), in the table `i` (log entry 11). -/
def genInv (t i : Table) : Table :=
  (List.finRange 256).foldl (fun acc x => put acc (look t (BitVec.ofFin x)) (BitVec.ofFin x)) i

/-- The inverse table of the forward table (R137, R140). -/
def invSboxTable : Table := genInv genSbox (Vector.replicate 256 0)

end Sys2Proof.Machine
end

