-- ==== Sys2Proof/Config.lean ====
section
/-! DEFINITION. What an implementation fixes and what the spec leaves open: the fixed parameters of the wrapper
(00_scope.md R10, R11), the open parameter STEP_LATENCY (R12), and the free values (constants without a body). The
other open parameter, BASE, is held in State (`baseBlock`), log entry 4. -/

namespace Sys2Proof.Config

/-- Size of the register window in bytes; BASE is a multiple of it (R11, R60). -/
abbrev windowBytes : Nat := 4096

/-- The one access width the window supports, in bytes (R11, R64). -/
abbrev accessBytes : Nat := 4

/-- STEP_LATENCY, the time an engine micro-step takes: a parameter "which no rule depends on" (R12, R311). No
definition of the model reads it (log entry 17). -/
opaque stepLatency : Nat

/-- FREE VALUE: the 32-bit value the n-th undefined read returns (20_memory.md R73: "a draw: the model must admit
every value"). The step supplies n from State's `draw` (log entry 3). -/
opaque freeWord : Nat → Word

/-- FREE VALUE: entry i of SBOX after the reset event that finds the draw counter at n (10_state.md R50: contents
"unspecified"; log entry 2). -/
opaque freeSbox : Nat → Nat → Byte

/-- FREE VALUE: entry i of INV_SBOX after the reset event that finds the draw counter at n (R50; log entry 2). -/
opaque freeInvSbox : Nat → Nat → Byte

end Sys2Proof.Config
end

