-- ==== Sys2Proof/WellFormed.lean ====
section
/-! DEFINITION. Which commands have operands in the range the spec gives them. Every command, in range or not, has a
word that decodes to it (30_encoding.md R98): an operand out of range is turned away by the acceptance checks
(43_driver.md R222), not by the decoder. -/

namespace Sys2Proof

/-- The multiplier constants GF_MUL accepts, {0, 1, 2, 3, 9, 11, 13, 14} (R94, R124). -/
def multiplierSet : List Byte := [0, 1, 2, 3, 9, 11, 13, 14]

/-- The operands are in the spec's range: C in the multiplier set (R94), RND a round key that exists, 0..14 (R92).
The widths of the fields are in the type. -/
def Instr.wellFormed : Instr → Bool
  | .gfMul _ c => multiplierSet.contains c
  | .addRoundKey rnd => rnd.toNat ≤ 14
  | .nop => true
  | .expandKey => true
  | .encryptBlock => true
  | .decryptBlock => true
  | .genTables => true
  | .sboxLookup _ => true
  | .invSboxLookup _ => true
  | .loadState => true
  | .unloadState => true
  | .subBytes => true
  | .invSubBytes => true
  | .shiftRows => true
  | .invShiftRows => true
  | .mixColumns => true
  | .invMixColumns => true

end Sys2Proof
end

