-- ==== Sys2Proof/Decode.lean ====
section
/-! DEFINITION. The decoder of a command word, total on every 32-bit word (30_encoding.md R98), and the encoder written
from the same field table (R90, R97, R105). -/

namespace Sys2Proof

/-! ## Fields of a command word (R90) -/

/-- OP = CMD[4:0] (R91). -/
def opField (w : Word) : BitVec 5 := w.extractLsb' 0 5

/-- RSV0 = CMD[7:5], must be 0 (R95). -/
def rsv0Field (w : Word) : BitVec 3 := w.extractLsb' 5 3

/-- RND = CMD[11:8] (R92). -/
def rndField (w : Word) : BitVec 4 := w.extractLsb' 8 4

/-- RSV1 = CMD[15:12], must be 0 (R95). -/
def rsv1Field (w : Word) : BitVec 4 := w.extractLsb' 12 4

/-- X = CMD[23:16] (R93). -/
def xField (w : Word) : Byte := w.extractLsb' 16 8

/-- C = CMD[31:24] (R94). -/
def cField (w : Word) : Byte := w.extractLsb' 24 8

/-! ## Opcodes (R97) -/

def opNop : BitVec 5 := 0x00
def opExpandKey : BitVec 5 := 0x01
def opEncryptBlock : BitVec 5 := 0x02
def opDecryptBlock : BitVec 5 := 0x03
def opGenTables : BitVec 5 := 0x04
def opSboxLookup : BitVec 5 := 0x05
def opInvSboxLookup : BitVec 5 := 0x06
def opGfMul : BitVec 5 := 0x07
def opLoadState : BitVec 5 := 0x08
def opUnloadState : BitVec 5 := 0x09
def opSubBytes : BitVec 5 := 0x0A
def opInvSubBytes : BitVec 5 := 0x0B
def opShiftRows : BitVec 5 := 0x0C
def opInvShiftRows : BitVec 5 := 0x0D
def opMixColumns : BitVec 5 := 0x0E
def opInvMixColumns : BitVec 5 := 0x0F
def opAddRoundKey : BitVec 5 := 0x10

/-! ## Decoding (R98) -/

/-- Why a word is not a command. The core reports every one of them as ILLEGAL_COMMAND (R95, R96, R99). -/
inductive DecodeError where
  /-- RSV0 or RSV1 is not 0 (R95). -/
  | reservedBits
  /-- OP is 0x11..0x1F (R99). -/
  | reservedOpcode
  /-- RND is not 0 in a command that does not use it (R96). -/
  | unusedRnd
  /-- X is not 0 in a command that does not use it (R96). -/
  | unusedX
  /-- C is not 0 in a command that does not use it (R96). -/
  | unusedC
  deriving DecidableEq, Repr

/-- The command an opcode names, with the operand fields it uses (R97); none for the reserved opcodes (R99). -/
def commandOf (f : CmdFields) : Option Instr :=
  match f.op.toNat with
  | 0x00 => some .nop
  | 0x01 => some .expandKey
  | 0x02 => some .encryptBlock
  | 0x03 => some .decryptBlock
  | 0x04 => some .genTables
  | 0x05 => some (.sboxLookup f.x)
  | 0x06 => some (.invSboxLookup f.x)
  | 0x07 => some (.gfMul f.x f.c)
  | 0x08 => some .loadState
  | 0x09 => some .unloadState
  | 0x0A => some .subBytes
  | 0x0B => some .invSubBytes
  | 0x0C => some .shiftRows
  | 0x0D => some .invShiftRows
  | 0x0E => some .mixColumns
  | 0x0F => some .invMixColumns
  | 0x10 => some (.addRoundKey f.rnd)
  | _ => none

/-- RND is used by ADD_ROUND_KEY only (R92, R96). -/
def usesRnd (op : BitVec 5) : Bool := op == opAddRoundKey

/-- X is used by SBOX_LOOKUP, INV_SBOX_LOOKUP and GF_MUL (R96). -/
def usesX (op : BitVec 5) : Bool := op == opSboxLookup || op == opInvSboxLookup || op == opGfMul

/-- C is used by GF_MUL only (R96). -/
def usesC (op : BitVec 5) : Bool := op == opGfMul

/-- The operand fields of a word (R90). -/
def fieldsOf (w : Word) : CmdFields := ⟨opField w, rndField w, xField w, cField w⟩

/-- Decode(w), the checks in the order of R98. -/
def decode (w : Word) : Except DecodeError Instr :=
  if rsv0Field w ≠ 0 ∨ rsv1Field w ≠ 0 then .error .reservedBits
  else match commandOf (fieldsOf w) with
    | none => .error .reservedOpcode
    | some i =>
      if rndField w ≠ 0 ∧ usesRnd (opField w) = false then .error .unusedRnd
      else if xField w ≠ 0 ∧ usesX (opField w) = false then .error .unusedX
      else if cField w ≠ 0 ∧ usesC (opField w) = false then .error .unusedC
      else .ok i

/-! ## Encoding (R90, R97, R105) -/

/-- The fields of a command; a field the command does not use is 0 (R96). -/
def Instr.fields : Instr → CmdFields
  | .nop => ⟨opNop, 0, 0, 0⟩
  | .expandKey => ⟨opExpandKey, 0, 0, 0⟩
  | .encryptBlock => ⟨opEncryptBlock, 0, 0, 0⟩
  | .decryptBlock => ⟨opDecryptBlock, 0, 0, 0⟩
  | .genTables => ⟨opGenTables, 0, 0, 0⟩
  | .sboxLookup x => ⟨opSboxLookup, 0, x, 0⟩
  | .invSboxLookup x => ⟨opInvSboxLookup, 0, x, 0⟩
  | .gfMul x c => ⟨opGfMul, 0, x, c⟩
  | .loadState => ⟨opLoadState, 0, 0, 0⟩
  | .unloadState => ⟨opUnloadState, 0, 0, 0⟩
  | .subBytes => ⟨opSubBytes, 0, 0, 0⟩
  | .invSubBytes => ⟨opInvSubBytes, 0, 0, 0⟩
  | .shiftRows => ⟨opShiftRows, 0, 0, 0⟩
  | .invShiftRows => ⟨opInvShiftRows, 0, 0, 0⟩
  | .mixColumns => ⟨opMixColumns, 0, 0, 0⟩
  | .invMixColumns => ⟨opInvMixColumns, 0, 0, 0⟩
  | .addRoundKey rnd => ⟨opAddRoundKey, rnd, 0, 0⟩

/-- The word with these fields and RSV0 = RSV1 = 0: C at 31:24, X at 23:16, RND at 11:8, OP at 4:0 (R90, R105). -/
def assemble (f : CmdFields) : Word := f.c ++ f.x ++ 0#4 ++ f.rnd ++ 0#3 ++ f.op

/-- The word of a command. -/
def encode (i : Instr) : Word := assemble i.fields

/-! ## The opcode table's numbering -/

/-- The decoder on a word given as a number, bit 0 least significant, its bits from `nbits` on being 0. A command
is one 32-bit value, written whole to CMD (R101), so no byte order enters (R69); a number that does not fit a command
word is none. -/
def decodeTableWord (nbits w : Nat) : Option Instr :=
  let v := w % 2 ^ nbits
  if v < 2 ^ 32 then (decode (BitVec.ofNat 32 v)).toOption else none

end Sys2Proof
end

