-- ==== Sys2Proof/Machine/Flags.lean ====
section
/-! DEFINITION. The codes of errors and phases, the words STATUS and FSM read as, and every change of the STATUS flags
(10_state.md R30 to R41; 60_exceptions.md R260, R266). -/

namespace Sys2Proof.Machine

/-! ## Codes and register words -/

/-- The four bits of an error code (R260). -/
def errorBits : ErrorCode → BitVec 4
  | .none => 0
  | .invalidArgument => 1
  | .uninitializedState => 2
  | .contractViolation => 3
  | .illegalCommand => 4

/-- The four bits of a phase (R41). -/
def phaseBits : Phase → BitVec 4
  | .idle => 0
  | .genFwd => 1
  | .genInv => 2
  | .load => 3
  | .ark => 4
  | .sb => 5
  | .sr => 6
  | .mc => 7
  | .isb => 8
  | .isr => 9
  | .imc => 10
  | .unload => 11
  | .kexp => 12
  | .prim => 13

/-- The word STATUS reads as: ERR at 11:8, OVR, ERR_STICKY, INV_VALID, SBOX_VALID, KEY_VALID, DONE, BUSY at 6 down to
0, the rest 0 (R30). -/
def statusWord (t : Status) : Word :=
  0#20 ++ errorBits t.err ++ 0#1 ++ BitVec.ofBool t.ovr ++ BitVec.ofBool t.errSticky ++ BitVec.ofBool t.invValid ++
    BitVec.ofBool t.sboxValid ++ BitVec.ofBool t.keyValid ++ BitVec.ofBool t.done ++ BitVec.ofBool t.busy

/-- The word FSM reads as: OP at 28:24, KIDX at 21:16, ROUND at 11:8, PHASE at 3:0, the rest 0 (R40). -/
def fsmWord (f : Fsm) : Word :=
  0#3 ++ f.op ++ 0#2 ++ f.kidx ++ 0#4 ++ f.round ++ 0#4 ++ phaseBits f.phase

/-- The phase of a micro-step (R41). -/
def phaseOf : MicroOp → Phase
  | .genFwd => .genFwd
  | .genInv => .genInv
  | .load => .load
  | .ark _ => .ark
  | .sb => .sb
  | .sr => .sr
  | .mc => .mc
  | .isb => .isb
  | .isr => .isr
  | .imc => .imc
  | .unload => .unload
  | .kexp _ => .kexp
  | .prim => .prim

/-! ## Changes of STATUS -/

/-- A command is accepted: ERR <- 0, DONE <- 0 (43_driver.md R222). -/
def statusAccepted (t : Status) : Status := { t with err := .none, done := false }

/-- A command with a non-empty queue starts: BUSY <- 1 (R222). -/
def statusStarted (t : Status) : Status := { t with busy := true }

/-- A command completes: BUSY <- 0, DONE <- 1; ERR keeps 0 (R227). -/
def statusCompleted (t : Status) : Status := { t with busy := false, done := true }

/-- A command word is rejected with e: ERR <- e, ERR_STICKY <- 1, DONE <- 1; BUSY stays as it is (R266). -/
def statusRejected (e : ErrorCode) (t : Status) : Status := { t with err := e, errSticky := true, done := true }

/-- A running command ends with UNINITIALIZED_STATE (R229). -/
def statusStopped (t : Status) : Status :=
  { t with err := .uninitializedState, errSticky := true, done := true, busy := false }

/-- A host write is dropped: OVR <- 1 (R37). -/
def statusDropped (t : Status) : Status := { t with ovr := true }

/-- KEY_VALID <- b (R33). -/
def statusKeyValid (b : Bool) (t : Status) : Status := { t with keyValid := b }

/-- SBOX_VALID <- 1 (R34). -/
def statusSboxValid (t : Status) : Status := { t with sboxValid := true }

/-- INV_VALID <- 1 (R35). -/
def statusInvValid (t : Status) : Status := { t with invValid := true }

end Sys2Proof.Machine
end

