-- ==== Sys2Proof/Machine/Ops.lean ====
section
/-! DEFINITION. The operations every command shares: writes of one piece of state, completion, the errors (the core's
exceptions), acceptance with lazy table generation, and the reset event (43_driver.md R220 to R229, 60_exceptions.md
R266, 70_reset_and_hazards.md R300). -/

namespace Sys2Proof.Machine

/-- The three outcomes of a step of this machine. -/
abbrev Result := Host.Outcome State Fault Refusal

/-! ## Writes of one piece of state -/

/-- KEYk <- v (R22). -/
def setKey (k : Fin 8) (v : Word) (s : State) : State := { s with key := s.key.set k v }

/-- DINk <- v (R23). -/
def setDin (k : Fin 4) (v : Word) (s : State) : State := { s with din := s.din.set k v }

/-- DOUT0..DOUT3 <- v (R24). -/
def setDout (v : Vector Word 4) (s : State) : State := { s with dout := v }

/-- S <- m (R25, R202). -/
def setMat (m : Block) (s : State) : State := { s with mat := m }

/-- W[i] <- v (R26). -/
def setW (i : Fin 60) (v : Word) (s : State) : State := { s with w := s.w.set i v }

/-- SBOX <- t (R27). -/
def setSbox (t : Table) (s : State) : State := { s with sbox := t }

/-- INV_SBOX <- t (R28). -/
def setInvSbox (t : Table) (s : State) : State := { s with invSbox := t }

/-- STATUS is changed by f (R30). -/
def onStatus (f : Status → Status) (s : State) : State := { s with status := f s.status }

/-- RESULT <- v (R39). -/
def setResult (v : Word) (s : State) : State := { s with result := v }

/-- FSM.PHASE <- p (R40). -/
def setPhase (p : Phase) (s : State) : State := { s with fsm := { s.fsm with phase := p } }

/-- FSM.ROUND <- r (R40). -/
def setRound (r : BitVec 4) (s : State) : State := { s with fsm := { s.fsm with round := r } }

/-- FSM.KIDX <- i (R40). -/
def setKidx (i : BitVec 6) (s : State) : State := { s with fsm := { s.fsm with kidx := i } }

/-- FSM.OP <- o (R40). -/
def setFsmOp (o : BitVec 5) (s : State) : State := { s with fsm := { s.fsm with op := o } }

/-- Q <- q (R42). -/
def setQueue (q : List MicroStep) (s : State) : State := { s with queue := q }

/-- LOP, LRND, LX, LC <- f (R42). -/
def setLatch (f : CmdFields) (s : State) : State := { s with latch := f }

/-- The host operations still to come become h. -/
def setHost (h : List HostEvent) (s : State) : State := { s with host := h }

/-- The host learns the value v of a read of address a (R64). -/
def logRead (a : Nat) (v : Word) (s : State) : State := { s with readLog := (a, v) :: s.readLog }

/-- One free value has been drawn. -/
def nextDraw (s : State) : State := { s with draw := s.draw + 1 }

/-! ## Completion -/

/-- Complete() (R227). -/
def complete (s : State) : State := setPhase .idle (onStatus statusCompleted s)

/-! ## Errors, the core's exceptions (60_exceptions.md) -/

/-- `raise CmdError(e)` for a word whose opcode bits are op: "exactly these effects" (R266, with FSM.OP set by R222).
Nothing is saved, no mode changes and control goes nowhere (R272). -/
def cmdError (e : ErrorCode) (op : BitVec 5) (s : State) : State := onStatus (statusRejected e) (setFsmOp op s)

/-- The defensive stop: the running command ends with UNINITIALIZED_STATE, nothing of the micro-step is performed and
Q is emptied (R229; log entry 10). -/
def defensiveStop (s : State) : State := setPhase .idle (setQueue [] (onStatus statusStopped s))

/-- A host write to KEYk, DINk or CMD while BUSY = 1: dropped, OVR <- 1 (20_memory.md R72). -/
def dropWrite (s : State) : State := onStatus statusDropped s

/-! ## Acceptance (R222, R226) -/

/-- NeedFwd (R226). -/
def needsFwd (op : BitVec 5) : Bool :=
  op == opExpandKey || op == opEncryptBlock || op == opSboxLookup || op == opSubBytes

/-- NeedInv (R226). -/
def needsInv (op : BitVec 5) : Bool :=
  op == opDecryptBlock || op == opInvSboxLookup || op == opInvSubBytes || op == opGenTables

/-- A micro-step that carries no round number (R228). -/
def plainStep (op : MicroOp) : MicroStep := ⟨op, none⟩

/-- GenPrefix(op): the table generation a command needs, in front of its body (R226). -/
def genPrefix (op : BitVec 5) (t : Status) : List MicroStep :=
  (if (needsFwd op || needsInv op) && !t.sboxValid then [plainStep .genFwd] else []) ++
  (if needsInv op && !t.invValid then [plainStep .genInv] else [])

/-- KEY_VALID <- 0 if the command is EXPAND_KEY (R222). -/
def clearKeyValid (op : BitVec 5) (s : State) : State :=
  if op = opExpandKey then onStatus (statusKeyValid false) s else s

/-- The part of Accept(w) after the checks (R222): the fields are latched, ERR and DONE cleared, and the queue is the
table generation followed by the body; a command with an empty queue completes at once. -/
def accept (f : CmdFields) (body : List MicroStep) (s : State) : State :=
  let s1 := clearKeyValid f.op (onStatus statusAccepted (setLatch f (setFsmOp f.op s)))
  match genPrefix f.op s1.status ++ body with
  | [] => complete (setQueue [] s1)
  | m :: q => onStatus statusStarted (setQueue (m :: q) s1)

/-- What the write of a command word that decodes does (R220, R222): dropped while BUSY = 1; otherwise rejected with
the error the checks give, if they give one; otherwise accepted. -/
def presentCommand (f : CmdFields) (check : Option ErrorCode) (body : List MicroStep) (s : State) : Result :=
  if s.status.busy then .next (dropWrite s)
  else match check with
    | some e => .next (cmdError e f.op s)
    | none => .next (accept f body s)

/-- What the write of a word that does not decode does: dropped while BUSY = 1, otherwise rejected with
ILLEGAL_COMMAND (R220, R222, R264). -/
def presentIllegal (w : Word) (s : State) : State :=
  if s.status.busy then dropWrite s else cmdError .illegalCommand (opField w) s

/-- The check of ENCRYPT_BLOCK, DECRYPT_BLOCK and ADD_ROUND_KEY: KEY_VALID = 0 is INVALID_ARGUMENT (R222, R261). -/
def keyValidCheck (s : State) : Option ErrorCode :=
  if s.status.keyValid then none else some .invalidArgument

/-! ## Reset as an event (R300, R301) -/

/-- The reset event: every piece of the core's state takes the value of R50, whatever command runs. The tables'
contents are free values (log entry 2); BASE, the host's pending operations and what it has read are no state of the
core and stay. -/
def resetCore (s : State) : State :=
  { State.reset with
    sbox := Vector.ofFn fun i => Config.freeSbox s.draw i.val
    invSbox := Vector.ofFn fun i => Config.freeInvSbox s.draw i.val
    baseBlock := s.baseBlock
    host := s.host
    readLog := s.readLog
    draw := s.draw + 1 }

end Sys2Proof.Machine
end

