-- ==== Sys2Proof/Machine/KeySchedule.lean ====
section
/-! DEFINITION. The key schedule and the command EXPAND_KEY (41_key_schedule.md R160 to R171). -/

namespace Sys2Proof.Machine

/-! ## Helper functions (R161 to R164) -/

/-- RotWord: rotate left by one byte (R161). -/
def rotWord (v : Word) : Word := v.rotateLeft 8

/-- SubWord: the forward table on each of the word's four bytes (R162). -/
def subWord (t : Table) (v : Word) : Word :=
  pack (look t (byteOf v 0)) (look t (byteOf v 1)) (look t (byteOf v 2)) (look t (byteOf v 3))

/-- RCON, ten bytes, index 0 first (10_state.md R29, R163). -/
def rcon : Vector Byte 10 := #v[0x01, 0x02, 0x04, 0x08, 0x10, 0x20, 0x40, 0x80, 0x1B, 0x36]

/-- RconWord(j): the entry in the most significant byte (R163). -/
def rconWord (j : Fin 10) : Word := zextByte rcon[j] <<< 24

/-! ## The recurrence (R165 to R168) -/

/-- `temp` of the recurrence for i >= 8, from the word before (R165): the first branch for i mod 8 = 0, the second for
i mod 4 = 0 otherwise. -/
def scheduleTemp (t : Table) (i : Fin 60) (prev : Word) : Word :=
  if i.val % 8 = 0 then subWord t (rotWord prev) ^^^ rconWord ⟨i.val / 8 - 1, by omega⟩
  else if i.val % 4 = 0 then subWord t prev
  else prev

/-- The word KEXP(i) writes: the key word for i < 8, otherwise W[i-8] xor temp (R168). -/
def scheduleWord (t : Table) (key : Vector Word 8) (w : Vector Word 60) (i : Fin 60) : Word :=
  if h : i.val < 8 then key[i.val]
  else w[i.val - 8] ^^^ scheduleTemp t i w[i.val - 1]

/-- ExpandKey for a key given as the eight words pack(K[4i..4i+3]) (R167, 20_memory.md R68). -/
def expandKey (key : Vector Word 8) : Vector Word 60 :=
  (List.finRange 60).foldl (fun (w : Vector Word 60) (i : Fin 60) => w.set i (scheduleWord genSbox key w i)) (Vector.replicate 60 0)

/-! ## The micro-step KEXP(i) -/

/-- KEXP(i): FSM.KIDX <- i, W[i] is written, and KEXP(59) sets KEY_VALID (R168). -/
def stepKexp (i : Fin 60) (s : State) : State :=
  let s1 := setKidx (BitVec.ofNat 6 i.val) (setW i (scheduleWord s.sbox s.key s.w i) s)
  if i.val = 59 then onStatus (statusKeyValid true) s1 else s1

/-! ## EXPAND_KEY (R169) -/

/-- KEXP(0), ..., KEXP(59) (R223). -/
def expandKeyBody : List MicroStep := (List.finRange 60).map fun i => plainStep (.kexp i)

/-- EXPAND_KEY (R169): no check beyond decoding. -/
def execExpandKey (s : State) : Result := presentCommand Instr.expandKey.fields none expandKeyBody s

end Sys2Proof.Machine
end

