-- ==== Sys2Proof/Machine/Transforms.lean ====
section
/-! DEFINITION. The round transforms as pure functions of the state matrix, their micro-steps, and the single-transform
commands (42_round_transforms.md R180 to R202). Every transform computes the whole new matrix from the old one
(R202). -/

namespace Sys2Proof.Machine

/-! ## Load and unload (R180 to R183) -/

/-- S[r][c] <- byte(DIN[c], r) (R181). -/
def loadBlock (d : Vector Word 4) : Block := blockOf fun r c => byteOf d[c] r

/-- DOUT[c] <- pack(S[0][c], S[1][c], S[2][c], S[3][c]) (R183). -/
def unloadBlock (m : Block) : Vector Word 4 :=
  Vector.ofFn fun c : Fin 4 => pack (cell m 0 c) (cell m 1 c) (cell m 2 c) (cell m 3 c)

/-! ## SubBytes, ShiftRows, MixColumns, AddRoundKey and their inverses (R185 to R195) -/

/-- SubBytes with the table t, and InvSubBytes with the inverse table (R185, R186). -/
def subBytes (t : Table) (m : Block) : Block := blockOf fun r c => look t (cell m r c)

/-- ShiftRows: S'[r][c] <- S[r][(c + r) mod 4] (R188). -/
def shiftRows (m : Block) : Block := blockOf fun r c => cell m r (c + r)

/-- InvShiftRows: S'[r][c] <- S[r][(c + 4 - r) mod 4] (R189). -/
def invShiftRows (m : Block) : Block := blockOf fun r c => cell m r (Fin.ofNat 4 (c.val + 4 - r.val))

/-- MixCol(a0, a1, a2, a3) (R191). -/
def mixCol (a0 a1 a2 a3 : Byte) : Vector Byte 4 :=
  #v[gmul a0 .c2 ^^^ gmul a1 .c3 ^^^ a2 ^^^ a3,
     a0 ^^^ gmul a1 .c2 ^^^ gmul a2 .c3 ^^^ a3,
     a0 ^^^ a1 ^^^ gmul a2 .c2 ^^^ gmul a3 .c3,
     gmul a0 .c3 ^^^ a1 ^^^ a2 ^^^ gmul a3 .c2]

/-- InvMixCol(a0, a1, a2, a3) (R192). -/
def invMixCol (a0 a1 a2 a3 : Byte) : Vector Byte 4 :=
  #v[gmul a0 .c14 ^^^ gmul a1 .c11 ^^^ gmul a2 .c13 ^^^ gmul a3 .c9,
     gmul a0 .c9 ^^^ gmul a1 .c14 ^^^ gmul a2 .c11 ^^^ gmul a3 .c13,
     gmul a0 .c13 ^^^ gmul a1 .c9 ^^^ gmul a2 .c14 ^^^ gmul a3 .c11,
     gmul a0 .c11 ^^^ gmul a1 .c13 ^^^ gmul a2 .c9 ^^^ gmul a3 .c14]

/-- MixColumns (R191). -/
def mixColumns (m : Block) : Block :=
  blockOf fun r c => (mixCol (cell m 0 c) (cell m 1 c) (cell m 2 c) (cell m 3 c))[r]

/-- InvMixColumns (R192). -/
def invMixColumns (m : Block) : Block :=
  blockOf fun r c => (invMixCol (cell m 0 c) (cell m 1 c) (cell m 2 c) (cell m 3 c))[r]

/-- AddRoundKey with round key n of the schedule w: S[r][c] xor byte(W[4n + c], r) (R195, 90_conflicts.md C2). -/
def addRoundKey (w : Vector Word 60) (n : Fin 15) (m : Block) : Block :=
  blockOf fun r c => cell m r c ^^^ byteOf (roundKeyWord w n c) r

/-! ## The micro-steps -/

/-- LOAD (R181). -/
def stepLoad (s : State) : State := setMat (loadBlock s.din) s

/-- UNLOAD (R183). -/
def stepUnload (s : State) : State := setDout (unloadBlock s.mat) s

/-- SB (R185). -/
def stepSb (s : State) : State := setMat (subBytes s.sbox s.mat) s

/-- ISB, with INV_VALID = 1 (R186; the defensive check is the engine's, Engine.lean). -/
def stepIsb (s : State) : State := setMat (subBytes s.invSbox s.mat) s

/-- SR (R188). -/
def stepSr (s : State) : State := setMat (shiftRows s.mat) s

/-- ISR (R189). -/
def stepIsr (s : State) : State := setMat (invShiftRows s.mat) s

/-- MC (R191). -/
def stepMc (s : State) : State := setMat (mixColumns s.mat) s

/-- IMC (R192). -/
def stepImc (s : State) : State := setMat (invMixColumns s.mat) s

/-- ARK(n) (R195). -/
def stepArk (n : Fin 15) (s : State) : State := setMat (addRoundKey s.w n s.mat) s

/-! ## The single-transform commands -/

/-- LOAD_STATE (R182). -/
def execLoadState (s : State) : Result := presentCommand Instr.loadState.fields none [plainStep .load] s

/-- UNLOAD_STATE (R184). -/
def execUnloadState (s : State) : Result := presentCommand Instr.unloadState.fields none [plainStep .unload] s

/-- SUB_BYTES (R187). -/
def execSubBytes (s : State) : Result := presentCommand Instr.subBytes.fields none [plainStep .sb] s

/-- INV_SUB_BYTES (R197). -/
def execInvSubBytes (s : State) : Result := presentCommand Instr.invSubBytes.fields none [plainStep .isb] s

/-- SHIFT_ROWS (R190). -/
def execShiftRows (s : State) : Result := presentCommand Instr.shiftRows.fields none [plainStep .sr] s

/-- INV_SHIFT_ROWS (R198). -/
def execInvShiftRows (s : State) : Result := presentCommand Instr.invShiftRows.fields none [plainStep .isr] s

/-- MIX_COLUMNS (R194). -/
def execMixColumns (s : State) : Result := presentCommand Instr.mixColumns.fields none [plainStep .mc] s

/-- INV_MIX_COLUMNS (R199). -/
def execInvMixColumns (s : State) : Result := presentCommand Instr.invMixColumns.fields none [plainStep .imc] s

/-- The round key RND names; none for RND > 14 (R92, R196). -/
def roundKeyOf (rnd : BitVec 4) : Option (Fin 15) :=
  if h : rnd.toNat ≤ 14 then some ⟨rnd.toNat, by omega⟩ else none

/-- ADD_ROUND_KEY (R196): RND > 14 is INVALID_ARGUMENT, then KEY_VALID = 0 is; the micro-step ARK(RND) carries the
round number RND (R228). -/
def execAddRoundKey (rnd : BitVec 4) (s : State) : Result :=
  match roundKeyOf rnd with
  | none => presentCommand (Instr.addRoundKey rnd).fields (some .invalidArgument) [] s
  | some n => presentCommand (Instr.addRoundKey rnd).fields (keyValidCheck s) [⟨.ark n, some rnd⟩] s

end Sys2Proof.Machine
end

