-- ==== Sys2Proof/Machine/Driver.lean ====
section
/-! DEFINITION. The 14-round driver: the two sequences of micro-steps, the block functions they compute, and the
commands ENCRYPT_BLOCK and DECRYPT_BLOCK (43_driver.md R228 to R239). -/

namespace Sys2Proof.Machine

/-! ## The sequences (R230, R231, with the round numbers of R228) -/

/-- A micro-step that carries a round number (R228). -/
def roundStep (r : Nat) (op : MicroOp) : MicroStep := ⟨op, some (BitVec.ofNat 4 r)⟩

/-- Round r, 1 to 13, of the forward sequence: SB, SR, MC, ARK(r) (R230). -/
def encRound (r : Fin 15) : List MicroStep :=
  [roundStep r .sb, roundStep r .sr, roundStep r .mc, roundStep r (.ark r)]

/-- Group r, 13 to 1, of the inverse sequence: ISR, ISB, ARK(r), IMC (R231). -/
def decGroup (r : Fin 15) : List MicroStep :=
  [roundStep r .isr, roundStep r .isb, roundStep r (.ark r), roundStep r .imc]

/-- 1, ..., 13. -/
def middleRounds : List (Fin 15) := [1, 2, 3, 4, 5, 6, 7, 8, 9, 10, 11, 12, 13]

/-- EncSeq, 58 micro-steps (R230). MC is absent from the last round (R238). -/
def encSeq : List MicroStep :=
  [roundStep 0 .load, roundStep 0 (.ark 0)] ++ middleRounds.flatMap encRound ++
    [roundStep 14 .sb, roundStep 14 .sr, roundStep 14 (.ark 14), roundStep 14 .unload]

/-- DecSeq, 58 micro-steps (R231). -/
def decSeq : List MicroStep :=
  [roundStep 14 .load, roundStep 14 (.ark 14)] ++ middleRounds.reverse.flatMap decGroup ++
    [roundStep 0 .isr, roundStep 0 .isb, roundStep 0 (.ark 0), roundStep 0 .unload]

/-! ## The block functions (R235) -/

/-- The state matrix after rounds 1 to 13 of Encrypt, from the matrix before them (R235). -/
def encMiddle (w : Vector Word 60) (m : Block) : Block :=
  middleRounds.foldl (fun a r => addRoundKey w r (mixColumns (shiftRows (subBytes genSbox a)))) m

/-- The state matrix Encrypt(B, w) ends with (R235). -/
def encryptMat (b : Vector Word 4) (w : Vector Word 60) : Block :=
  addRoundKey w 14 (shiftRows (subBytes genSbox (encMiddle w (addRoundKey w 0 (loadBlock b)))))

/-- Encrypt(B, w) (R235). -/
def encrypt (b : Vector Word 4) (w : Vector Word 60) : Vector Word 4 := unloadBlock (encryptMat b w)

/-- The state matrix after groups 13 to 1 of Decrypt, from the matrix before them (R235). -/
def decMiddle (w : Vector Word 60) (m : Block) : Block :=
  middleRounds.reverse.foldl
    (fun a r => invMixColumns (addRoundKey w r (subBytes invSboxTable (invShiftRows a)))) m

/-- The state matrix Decrypt(B, w) ends with (R235). -/
def decryptMat (b : Vector Word 4) (w : Vector Word 60) : Block :=
  addRoundKey w 0 (subBytes invSboxTable (invShiftRows (decMiddle w (addRoundKey w 14 (loadBlock b)))))

/-- Decrypt(B, w) (R235). -/
def decrypt (b : Vector Word 4) (w : Vector Word 60) : Vector Word 4 := unloadBlock (decryptMat b w)

/-! ## The commands -/

/-- ENCRYPT_BLOCK (R233). -/
def execEncryptBlock (s : State) : Result := presentCommand Instr.encryptBlock.fields (keyValidCheck s) encSeq s

/-- DECRYPT_BLOCK (R234). -/
def execDecryptBlock (s : State) : Result := presentCommand Instr.decryptBlock.fields (keyValidCheck s) decSeq s

end Sys2Proof.Machine
end

