-- ==== Sys2Proof/Machine/Tables.lean ====
section
/-! DEFINITION. The table micro-steps GEN_FWD and GEN_INV, the micro-step PRIM, and the commands GEN_TABLES,
SBOX_LOOKUP, INV_SBOX_LOOKUP, GF_MUL and NOP (40_gf_sbox.md R127, R128, R134, R139, R142 to R144; 43_driver.md
R240). -/

namespace Sys2Proof.Machine

/-! ## Table generation -/

/-- GEN_FWD: SBOX <- GenSbox(); SBOX_VALID <- 1 (R134). -/
def stepGenFwd (s : State) : State := onStatus statusSboxValid (setSbox genSbox s)

/-- GEN_INV: INV_SBOX <- GenInv(SBOX); INV_VALID <- 1 (R139; log entry 11). -/
def stepGenInv (s : State) : State := onStatus statusInvValid (setInvSbox (genInv s.sbox s.invSbox) s)

/-! ## PRIM, the body of the command in LOP (43_driver.md R224) -/

/-- PRIM of NOP: no effect (R240). -/
def primNop (s : State) : State := s

/-- PRIM of SBOX_LOOKUP: RESULT <- zext_32(SBOX[LX]) (R143). -/
def primSboxLookup (s : State) : State := setResult (zextByte (look s.sbox s.latch.x)) s

/-- PRIM of INV_SBOX_LOOKUP with INV_VALID = 1: RESULT <- zext_32(INV_SBOX[LX]) (R144). -/
def primInvSboxLookup (s : State) : State := setResult (zextByte (look s.invSbox s.latch.x)) s

/-- PRIM of GF_MUL: RESULT <- zext_32(gmul(LX, LC)) (R128; LC is in the set by the check at acceptance, log entry
12). -/
def primGfMul (s : State) : State :=
  match gfConstOf s.latch.c with
  | some c => setResult (zextByte (gmul s.latch.x c)) s
  | none => s

/-- PRIM (R223, R224). Only the four commands named queue one; under another LOP it has no effect (log entry 12). -/
def stepPrim (s : State) : State :=
  if s.latch.op = opNop then primNop s
  else if s.latch.op = opSboxLookup then primSboxLookup s
  else if s.latch.op = opInvSboxLookup then primInvSboxLookup s
  else if s.latch.op = opGfMul then primGfMul s
  else s

/-! ## The commands -/

/-- NOP (R240). -/
def execNop (s : State) : Result := presentCommand Instr.nop.fields none [plainStep .prim] s

/-- GEN_TABLES (R142): no body; with both tables valid it completes at acceptance. -/
def execGenTables (s : State) : Result := presentCommand Instr.genTables.fields none [] s

/-- SBOX_LOOKUP (R143). -/
def execSboxLookup (x : Byte) (s : State) : Result :=
  presentCommand (Instr.sboxLookup x).fields none [plainStep .prim] s

/-- INV_SBOX_LOOKUP (R144). -/
def execInvSboxLookup (x : Byte) (s : State) : Result :=
  presentCommand (Instr.invSboxLookup x).fields none [plainStep .prim] s

/-- The check of GF_MUL: C outside the set is CONTRACT_VIOLATION (R127, R128, 60_exceptions.md R263). -/
def multiplierCheck (c : Byte) : Option ErrorCode :=
  if (gfConstOf c).isSome then none else some .contractViolation

/-- GF_MUL (R128). -/
def execGfMul (x c : Byte) (s : State) : Result :=
  presentCommand (Instr.gfMul x c).fields (multiplierCheck c) [plainStep .prim] s

end Sys2Proof.Machine
end

