-- ==== Sys2Proof/Machine/Engine.lean ====
section
/-! DEFINITION. The engine: one micro-step of the queue Q (43_driver.md R224, R227 to R229), and the micro-steps of a
whole command (R221). -/

namespace Sys2Proof.Machine

/-- The rule of each micro-step (R224). -/
def perform (m : MicroOp) (s : State) : State :=
  match m with
  | .genFwd => stepGenFwd s
  | .genInv => stepGenInv s
  | .load => stepLoad s
  | .ark n => stepArk n s
  | .sb => stepSb s
  | .sr => stepSr s
  | .mc => stepMc s
  | .isb => stepIsb s
  | .isr => stepIsr s
  | .imc => stepImc s
  | .unload => stepUnload s
  | .kexp i => stepKexp i s
  | .prim => stepPrim s

/-- The micro-steps that read INV_SBOX: ISB, and the PRIM of INV_SBOX_LOOKUP (R229). -/
def readsInverse (m : MicroOp) (s : State) : Bool :=
  match m with
  | .isb => true
  | .prim => s.latch.op == opInvSboxLookup
  | .genFwd => false
  | .genInv => false
  | .load => false
  | .ark _ => false
  | .sb => false
  | .sr => false
  | .mc => false
  | .isr => false
  | .imc => false
  | .unload => false
  | .kexp _ => false

/-- FSM shows the micro-step: its phase, and its round number if it carries one (R224, R228). -/
def showStep (m : MicroStep) (s : State) : State :=
  let s1 := setPhase (phaseOf m.op) s
  match m.round with
  | some r => setRound r s1
  | none => s1

/-- The micro-step has been performed: it leaves Q, and the command completes if Q is then empty (R224). -/
def finishStep (rest : List MicroStep) (s : State) : State :=
  match rest with
  | [] => complete (setQueue [] s)
  | m :: q => setQueue (m :: q) s

/-- One step of the engine: the head micro-step of Q, or the defensive stop (R224, R229). With Q empty the engine
performs nothing (R280). -/
def engineStep (s : State) : State :=
  match s.queue with
  | [] => s
  | m :: rest =>
    if readsInverse m.op s && !s.status.invValid then defensiveStop s
    else finishStep rest (perform m.op (showStep m s))

/-- n steps of the engine, the host doing nothing between them. -/
def engineRun : Nat → State → State
  | 0, s => s
  | n + 1, s => engineRun n (engineStep s)

/-- The engine performs all the micro-steps in Q: what a command does from its acceptance to its completion when the
host does nothing meanwhile (R221, R227). -/
def drain (s : State) : State := engineRun s.queue.length s

end Sys2Proof.Machine
end

