-- ==== Sys2Proof/Machine/Dispatch.lean ====
section
/-! DEFINITION. One arm per command: what the write of its word to CMD does (43_driver.md R220, R222). -/

namespace Sys2Proof.Machine

def exec (i : Instr) (s : State) : Host.Outcome State Fault Refusal :=
  match i with
  | .nop => Sys2Proof.Machine.execNop s
  | .expandKey => Sys2Proof.Machine.execExpandKey s
  | .encryptBlock => Sys2Proof.Machine.execEncryptBlock s
  | .decryptBlock => Sys2Proof.Machine.execDecryptBlock s
  | .genTables => Sys2Proof.Machine.execGenTables s
  | .sboxLookup x => Sys2Proof.Machine.execSboxLookup x s
  | .invSboxLookup x => Sys2Proof.Machine.execInvSboxLookup x s
  | .gfMul x c => Sys2Proof.Machine.execGfMul x c s
  | .loadState => Sys2Proof.Machine.execLoadState s
  | .unloadState => Sys2Proof.Machine.execUnloadState s
  | .subBytes => Sys2Proof.Machine.execSubBytes s
  | .invSubBytes => Sys2Proof.Machine.execInvSubBytes s
  | .shiftRows => Sys2Proof.Machine.execShiftRows s
  | .invShiftRows => Sys2Proof.Machine.execInvShiftRows s
  | .mixColumns => Sys2Proof.Machine.execMixColumns s
  | .invMixColumns => Sys2Proof.Machine.execInvMixColumns s
  | .addRoundKey rnd => Sys2Proof.Machine.execAddRoundKey rnd s

end Sys2Proof.Machine
end

