-- ==== Sys2Proof/Machine/Window.lean ====
section
/-! DEFINITION. The host's side: which agent moves next (43_driver.md R225) and the host's operations on the register
window (20_memory.md R60 to R73, 30_encoding.md R106, R108). A write to CMD presents a command and is the business of
Step.lean. -/

namespace Sys2Proof.Machine

/-! ## Address decoding (R60, R64) -/

/-- The offset of a host access, or why it is no access of the window: an address that is not in it, or an access that
is not an aligned 32-bit one (R64, R65; log entry 7). -/
def accessOffset (s : State) (addr bytes : Nat) : Except Fault Nat :=
  if addr < base s ∨ base s + Config.windowBytes ≤ addr then .error (.outsideWindow addr)
  else if bytes ≠ Config.accessBytes ∨ (addr - base s) % 4 ≠ 0 then .error (.busError addr)
  else .ok (addr - base s)

/-! ## Reads (R61, R63, R66, R73) -/

/-- The value of a register, exact whenever it is defined: CMD reads 0 (R43, R66), a reserved offset 0 (R63). -/
def regValue (s : State) : Option Reg → Word
  | some (.key k) => s.key[k]
  | some (.din k) => s.din[k]
  | some (.dout k) => s.dout[k]
  | some .cmd => 0
  | some .status => statusWord s.status
  | some .result => s.result
  | some .fsm => fsmWord s.fsm
  | some (.w i) => s.w[i]
  | none => 0

/-- The registers whose value is unspecified while BUSY = 1: DOUTk, Wi, RESULT, FSM (R73). -/
def openWhileBusy : Option Reg → Bool
  | some (.dout _) => true
  | some (.w _) => true
  | some .result => true
  | some .fsm => true
  | some (.key _) => false
  | some (.din _) => false
  | some .cmd => false
  | some .status => false
  | none => false

/-- RegRead(off) at address addr: the host learns the register's value, or a free value where R73 leaves it open. No
other effect (R71). -/
def regRead (addr : Nat) (r : Option Reg) (s : State) : State :=
  if s.status.busy && openWhileBusy r then nextDraw (logRead addr (Config.freeWord s.draw) s)
  else logRead addr (regValue s r) s

/-- MemRead(addr, n) (R64). -/
def memRead (addr bytes : Nat) (s : State) : Result :=
  match accessOffset s addr bytes with
  | .error e => .fault e
  | .ok off => .next (regRead addr (regAt off) s)

/-! ## Writes (R61, R63, R66, R72) -/

/-- RegWrite(off, v) at every offset but CMD: KEYk and DINk take the value, or the write is dropped while BUSY = 1
(R72); a write to a read-only register or a reserved offset has no effect (R63, R66). -/
def regWrite (r : Option Reg) (v : Word) (s : State) : State :=
  match r with
  | some (.key k) => if s.status.busy then dropWrite s else setKey k v s
  | some (.din k) => if s.status.busy then dropWrite s else setDin k v s
  | some (.dout _) => s
  | some .cmd => s
  | some .status => s
  | some .result => s
  | some .fsm => s
  | some (.w _) => s
  | none => s

/-- MemWrite(addr, n, v) (R64), but for a write to CMD. -/
def memWrite (addr bytes : Nat) (v : Word) (s : State) : Result :=
  match accessOffset s addr bytes with
  | .error e => .fault e
  | .ok off => .next (regWrite (regAt off) v s)

/-- The command word a host operation presents to the engine: the value of an aligned 32-bit write to CMD (R43,
R220). -/
def commandWord (op : HostOp) (s : State) : Option Word :=
  match op with
  | .write addr bytes v =>
    match accessOffset s addr bytes with
    | .error _ => none
    | .ok off => if regAt off = some .cmd then some v else none
  | .read _ _ => none
  | .wait _ => none
  | .check => none
  | .reset => none

/-! ## `wait` and `check` (30_encoding.md R106, R108) -/

/-- One read of STATUS by the host (R106: `rd STATUS`). -/
def pollStatus (s : State) : State := regRead (regAddr s .status) (some .status) s

/-- One turn of the loop `L: rd STATUS; if [STATUS][0] == 1 goto L` (R106). When the poll finds BUSY = 1 the loop goes
on after as many micro-steps as the next gap says, or, when no gap is left, after the rest of Q. Either way the loop goes
back to the head of the host's list, so only micro-steps come between its polls. The spec lets a reset or another access
come there too (R225, 70_reset_and_hazards.md R301): such runs have reads of STATUS in the list in the place of the
loop (DESIGN CHOICE, log entry 14). -/
def waitTurn (gaps : List Nat) (s : State) : State :=
  let t := pollStatus s
  if s.status.busy then
    match gaps with
    | [] => setHost (⟨s.queue.length, .wait []⟩ :: s.host) t
    | g :: gs => setHost (⟨g, .wait gs⟩ :: s.host) t
  else t

/-- `check`: `rd STATUS`, then the program's assertion that ERR = 0 (R108). -/
def checkTurn (s : State) : Result :=
  if s.status.err = .none then .next (pollStatus s) else .fault (.checkFailed s.status.err)

/-- What a host operation that presents no command does. -/
def hostTurn (op : HostOp) (s : State) : Result :=
  match op with
  | .read addr bytes => memRead addr bytes s
  | .write addr bytes v => memWrite addr bytes v s
  | .wait gaps => .next (waitTurn gaps s)
  | .check => checkTurn s
  | .reset => .next (resetCore s)

/-! ## Which agent moves next (R225; log entry 5) -/

/-- Who takes the next step, and the state it takes it in. -/
inductive Turn where
  /-- Neither agent has an enabled step. -/
  | idle
  /-- The engine performs its head micro-step. -/
  | engine (s : State)
  /-- The host performs an operation, which is no longer among those to come. -/
  | host (op : HostOp) (s : State)

/-- The engine moves while the next host operation's delay is not used up and Q is not empty, and while the host has
nothing to do; otherwise the host moves. The engine is enabled exactly when Q is non-empty (R225). -/
def nextTurn (s : State) : Turn :=
  match s.host, s.queue with
  | [], [] => .idle
  | [], _ :: _ => .engine s
  | e :: rest, [] => .host e.op (setHost rest s)
  | e :: rest, _ :: _ =>
    match e.delay with
    | 0 => .host e.op (setHost rest s)
    | d + 1 => .engine (setHost (⟨d, e.op⟩ :: rest) s)

/-- The host event that writes a command word to CMD as its next operation. -/
def commandEvent (s : State) (w : Word) : HostEvent := ⟨0, .write (regAddr s .cmd) Config.accessBytes w⟩

end Sys2Proof.Machine
end

