-- ==== Sys2Proof/Machine/Step.lean ====
section
/-! DEFINITION. One step of the machine: one agent's step (43_driver.md R225). -/

namespace Sys2Proof.Machine

/-- One step: a micro-step of the engine or one operation of the host, as `nextTurn` says. A write to CMD presents a
command word: it is decoded and executed, or refused as the spec says (R220). With neither agent enabled nothing
happens (60_exceptions.md R280; log entry 13). -/
def step (s : State) : Host.Outcome State Fault Refusal :=
  match nextTurn s with
  | .idle => .next s
  | .engine t => .next (engineStep t)
  | .host op t =>
    match commandWord op t with
    | none => hostTurn op t
    | some w =>
      match decode w with
      | .ok i => exec i t
      | .error _ => .next (presentIllegal w t)

/-- The core fetches nothing: a command is a word the host writes to CMD (20_memory.md R78). This places that write
before every other host operation, with no micro-step before it, so that the next step runs it (log entry 5). -/
def State.withFetchWord (s : State) (nbits w : Nat) : State :=
  setHost (commandEvent s (BitVec.ofNat 32 (w % 2 ^ nbits)) :: s.host) s

end Sys2Proof.Machine
end

