-- ==== Sys2Proof/Machine/HostProgram.lean ====
section
/-! DEFINITION. Host programs in the spec's own notation, and what each line stands for on the bus (30_encoding.md
R104 to R109). -/

namespace Sys2Proof.Machine

/-- One line of a host program (R104 to R108). -/
inductive HostLine where
  /-- `wr <reg>, <value>` -/
  | wr (r : Reg) (v : Word)
  /-- `rd <reg>` -/
  | rd (r : Reg)
  /-- `cmd <MNEMONIC> [rnd=..] [x=..] [c=..]`, as the fields of its word -/
  | cmd (f : CmdFields)
  /-- `wait` -/
  | wait
  /-- `ldkey <64 hex digits>` -/
  | ldkey (k : Vector Byte 32)
  /-- `ldblk <32 hex digits>` -/
  | ldblk (b : Vector Byte 16)
  /-- `rdblk` -/
  | rdblk
  /-- `check` -/
  | check
  deriving DecidableEq, Repr

/-- `wr <reg>, <value>` is MemWrite(BASE + offset(reg), 4, value) (R104). -/
def writeOp (baseAddr : Nat) (r : Reg) (v : Word) : HostOp := .write (baseAddr + regOffset r) Config.accessBytes v

/-- `rd <reg>` is MemRead(BASE + offset(reg), 4) (R104). -/
def readOp (baseAddr : Nat) (r : Reg) : HostOp := .read (baseAddr + regOffset r) Config.accessBytes

/-- The host operations a line stands for (R104 to R108). `gaps` is used by `wait` alone: it says how many micro-steps
the engine takes after each poll that finds BUSY = 1, which the spec leaves open (R106, 43_driver.md R225; DESIGN
CHOICE, log entry 14). A line's text does not fix it. -/
def lineOps (baseAddr : Nat) (gaps : List Nat) : HostLine → List HostOp
  | .wr r v => [writeOp baseAddr r v]
  | .rd r => [readOp baseAddr r]
  | .cmd f => [writeOp baseAddr .cmd (assemble f)]
  | .wait => [.wait gaps]
  | .ldkey k => (List.finRange 8).map fun i => writeOp baseAddr (.key i) (keyWord k i)
  | .ldblk b => (List.finRange 4).map fun i => writeOp baseAddr (.din i) (blockWord b i)
  | .rdblk => (List.finRange 4).map fun i => readOp baseAddr (.dout i)
  | .check => [.check]

/-- A program as host events. The spec leaves the interleaving of its accesses with micro-steps open (43_driver.md R225);
here it is given from outside: entry n of `gaps` is line n's, for a `wait` the micro-steps between its polls (none left
where it has no entry), and entry n of `delays` is the number of micro-steps before operation n (0 where it has no
entry). Every interleaving of the program and the engine in which each `wait` polls finitely often, as fairness has it
(R311), is the program with some `gaps` and `delays`, whatever number of its polls find BUSY = 1. A reset or another
master's access between the polls of a `wait` is not among them: a host list with reads of STATUS in its place says that
(DESIGN CHOICE, log entries 5 and 14). -/
def programEvents (baseAddr : Nat) (lines : List HostLine) (gaps : List (List Nat)) (delays : List Nat) :
    List HostEvent :=
  (lines.mapIdx fun n line => lineOps baseAddr (gaps.getD n []) line).flatten.mapIdx fun n op => ⟨delays.getD n 0, op⟩

/-- `expand_key(K)` = `ldkey K; cmd EXPAND_KEY; wait` (R109). -/
def expandKeyLines (k : Vector Byte 32) : List HostLine := [.ldkey k, .cmd Instr.expandKey.fields, .wait]

/-- `encrypt_block(B, schedule)` = `ldblk B; cmd ENCRYPT_BLOCK; wait; rdblk` (R109). -/
def encryptBlockLines (b : Vector Byte 16) : List HostLine :=
  [.ldblk b, .cmd Instr.encryptBlock.fields, .wait, .rdblk]

/-- `decrypt_block(B, schedule)` = `ldblk B; cmd DECRYPT_BLOCK; wait; rdblk` (R109). -/
def decryptBlockLines (b : Vector Byte 16) : List HostLine :=
  [.ldblk b, .cmd Instr.decryptBlock.fields, .wait, .rdblk]

end Sys2Proof.Machine
end

