-- ==== Sys2Proof/Safety.lean ====
section
/-! DEFINITION. What holds of the machine between any two steps (10_state.md R30 to R46, R262), and the shapes of state
that claims name. -/

namespace Sys2Proof.Machine

/-! ## Invariants -/

/-- The tables hold what their flags say (R44). -/
structure TablesOk (s : State) : Prop where
  inv_needs_sbox : s.status.invValid = true → s.status.sboxValid = true
  sbox_content : s.status.sboxValid = true → s.sbox = genSbox
  inv_content : s.status.invValid = true → s.invSbox = invSboxTable

/-- Every micro-step of a queue finds the tables it reads valid, starting from the flags `sv` (SBOX_VALID) and `iv`
(INV_VALID), under the latched opcode `op` (43_driver.md R226). -/
def tablesReady (op : BitVec 5) : Bool → Bool → List MicroStep → Bool
  | _, _, [] => true
  | sv, iv, m :: q =>
    match m.op with
    | .genFwd => tablesReady op true iv q
    | .genInv => sv && tablesReady op sv true q
    | .sb => sv && tablesReady op sv iv q
    | .kexp _ => sv && tablesReady op sv iv q
    | .isb => iv && tablesReady op sv iv q
    | .prim =>
      (op != opSboxLookup || sv) && (op != opInvSboxLookup || iv) && tablesReady op sv iv q
    | .load => tablesReady op sv iv q
    | .ark _ => tablesReady op sv iv q
    | .sr => tablesReady op sv iv q
    | .mc => tablesReady op sv iv q
    | .isr => tablesReady op sv iv q
    | .imc => tablesReady op sv iv q
    | .unload => tablesReady op sv iv q

/-- The engine's invariant: what R31, R32, R44, R46 and R262 say of every point between two steps, and that the queue
never reads a table before it is generated (R226). -/
structure EngineInv (s : State) : Prop where
  /-- BUSY = 1 if and only if Q is non-empty (R46). -/
  busy_iff : s.status.busy = true ↔ s.queue ≠ []
  /-- When BUSY = 0, FSM.PHASE = IDLE (R46). -/
  idle_phase : s.status.busy = false → s.fsm.phase = .idle
  /-- While a command runs, DONE = 0 and ERR = 0 (R32, R38). -/
  running : s.status.busy = true → s.status.done = false ∧ s.status.err = .none
  /-- An error is remembered (R36) and has completed its command (R32). -/
  err_recorded : s.status.err ≠ .none → s.status.errSticky = true ∧ s.status.done = true
  /-- Code 2 is never written (R262). -/
  never_uninitialized : s.status.err ≠ .uninitializedState
  tables : TablesOk s
  ready : tablesReady s.latch.op s.status.sboxValid s.status.invValid s.queue = true
  /-- A GF_MUL was accepted with a constant of the set (R127). -/
  multiplier : s.latch.op = opGfMul → (gfConstOf s.latch.c).isSome = true

/-- KEXP(i), ..., KEXP(59): the rest of EXPAND_KEY (41_key_schedule.md R168). -/
def kexpFrom (i : Nat) : List MicroStep := expandKeyBody.drop i

/-- The schedule's invariant (R33, R45). -/
structure ScheduleInv (s : State) : Prop where
  /-- KEY_VALID = 1: W is the schedule of some key (R45). -/
  valid : s.status.keyValid = true → ∃ key, s.w = expandKey key
  /-- A queue that holds a KEXP is the rest of an EXPAND_KEY (R169). -/
  shape : ∀ m ∈ s.queue, (∃ i, m.op = .kexp i) →
    s.queue = plainStep .genFwd :: kexpFrom 0 ∨ ∃ j, s.queue = kexpFrom j
  /-- Meanwhile KEY_VALID = 0 (R33) and the words written so far are the schedule of the key in KEY (R168). -/
  partial_schedule : ∀ j, j < 60 → s.queue = kexpFrom j →
    s.status.keyValid = false ∧ ∀ i : Fin 60, i.val < j → s.w[i] = (expandKey s.key)[i]
  /-- Before the table an EXPAND_KEY needs is generated, KEY_VALID = 0 too (R33). -/
  before_generation : s.queue = plainStep .genFwd :: kexpFrom 0 → s.status.keyValid = false

/-- RESULT[31:8] is 0 (R39). -/
def ResultIsByte (s : State) : Prop := s.result.extractLsb' 8 24 = 0

/-! ## Shapes of state that claims name -/

/-- The state with the effects every completed command has: ERR = 0, DONE = 1, BUSY = 0, PHASE = IDLE, OP and the
latched fields those of the command, Q empty (R222, R227). -/
def completed (i : Instr) (s : State) : State :=
  { s with
    status := { s.status with busy := false, done := true, err := .none }
    fsm := { s.fsm with phase := .idle, op := i.fields.op }
    latch := i.fields
    queue := [] }

/-- The state with the forward table generated (R134). -/
def withSbox (s : State) : State := { s with sbox := genSbox, status := { s.status with sboxValid := true } }

/-- The state with both tables generated (R134, R139). -/
def withTables (s : State) : State :=
  { s with
    sbox := genSbox, invSbox := invSboxTable
    status := { s.status with sboxValid := true, invValid := true } }

/-- The state a command word is rejected in (60_exceptions.md R266). -/
def rejected (e : ErrorCode) (op : BitVec 5) (s : State) : State :=
  { s with
    status := { s.status with err := e, errSticky := true, done := true }
    fsm := { s.fsm with op := op } }

/-- A safe run: the machine never stops with a fault. -/
def SafeFor (n : Nat) (s : State) : Prop := ∃ t, (Host.Core.run ⟨State, Fault, Refusal, step, State.reset⟩ n s) = .next t

end Sys2Proof.Machine
end

