-- ==== Sys2Proof/Certificates/Slice0/Obligations.lean ====
section
/-! DEFINITION. The statements for the provers. Each docstring names the rules of spec/ the statement formalises. The
definitions before the statements restate tables of the spec in the form the statements need, independently of the
machine's own definitions. -/

namespace Sys2Proof.Machine

/-- The words 30_encoding.md R98 returns Error(ILLEGAL_COMMAND) for, in the words of its pseudocode. -/
def IllegalWord (w : Word) : Prop :=
  (w.extractLsb 7 5 ≠ 0 ∨ w.extractLsb 15 12 ≠ 0) ∨
  w.extractLsb 4 0 ≥ 0x11 ∨
  (w.extractLsb 11 8 ≠ 0 ∧ w.extractLsb 4 0 ≠ 0x10) ∨
  (w.extractLsb 23 16 ≠ 0 ∧ w.extractLsb 4 0 ≠ 0x05 ∧ w.extractLsb 4 0 ≠ 0x06 ∧ w.extractLsb 4 0 ≠ 0x07) ∨
  (w.extractLsb 31 24 ≠ 0 ∧ w.extractLsb 4 0 ≠ 0x07)

/-- It is the host's turn and its next operation is `op`, after which `rest` is to come: the engine has taken the
micro-steps before it, or has none left (43_driver.md R225, log entry 5). -/
def NextOp (s : State) (op : HostOp) (rest : List HostEvent) : Prop :=
  ∃ d, s.host = ⟨d, op⟩ :: rest ∧ (d = 0 ∨ s.queue = [])

/-- The error of the acceptance checks that follow decoding, first failing check first (43_driver.md R222,
60_exceptions.md R261, R263, R265). -/
def acceptanceError (s : State) : Instr → Option ErrorCode
  | .gfMul _ c => if c ∈ [0x00, 0x01, 0x02, 0x03, 0x09, 0x0B, 0x0D, 0x0E] then none else some .contractViolation
  | .addRoundKey rnd =>
    if rnd.toNat > 14 then some .invalidArgument
    else if s.status.keyValid = false then some .invalidArgument else none
  | .encryptBlock => if s.status.keyValid = false then some .invalidArgument else none
  | .decryptBlock => if s.status.keyValid = false then some .invalidArgument else none
  | .nop => none
  | .expandKey => none
  | .genTables => none
  | .sboxLookup _ => none
  | .invSboxLookup _ => none
  | .loadState => none
  | .unloadState => none
  | .subBytes => none
  | .invSubBytes => none
  | .shiftRows => none
  | .invShiftRows => none
  | .mixColumns => none
  | .invMixColumns => none

/-- NeedFwd (43_driver.md R226). -/
def inNeedFwd (i : Instr) : Prop :=
  i = .expandKey ∨ i = .encryptBlock ∨ (∃ x, i = .sboxLookup x) ∨ i = .subBytes

/-- NeedInv (43_driver.md R226). -/
def inNeedInv (i : Instr) : Prop :=
  i = .decryptBlock ∨ (∃ x, i = .invSboxLookup x) ∨ i = .invSubBytes ∨ i = .genTables

/-- p is GenPrefix of the command i under the flags of t (43_driver.md R226). -/
def IsTablePrefix (i : Instr) (t : Status) (p : List MicroStep) : Prop :=
  ∃ a b : List MicroStep, p = a ++ b ∧
    ((inNeedFwd i ∨ inNeedInv i) ∧ t.sboxValid = false → a = [⟨.genFwd, none⟩]) ∧
    (¬((inNeedFwd i ∨ inNeedInv i) ∧ t.sboxValid = false) → a = []) ∧
    (inNeedInv i ∧ t.invValid = false → b = [⟨.genInv, none⟩]) ∧
    (¬(inNeedInv i ∧ t.invValid = false) → b = [])

/-- Body(op, rnd) (43_driver.md R223), the micro-steps of a command after table generation. -/
def bodyOf : Instr → List MicroStep
  | .nop => [⟨.prim, none⟩]
  | .sboxLookup _ => [⟨.prim, none⟩]
  | .invSboxLookup _ => [⟨.prim, none⟩]
  | .gfMul _ _ => [⟨.prim, none⟩]
  | .expandKey => (List.finRange 60).map fun i => ⟨.kexp i, none⟩
  | .encryptBlock => encSeq
  | .decryptBlock => decSeq
  | .genTables => []
  | .loadState => [⟨.load, none⟩]
  | .unloadState => [⟨.unload, none⟩]
  | .subBytes => [⟨.sb, none⟩]
  | .invSubBytes => [⟨.isb, none⟩]
  | .shiftRows => [⟨.sr, none⟩]
  | .invShiftRows => [⟨.isr, none⟩]
  | .mixColumns => [⟨.mc, none⟩]
  | .invMixColumns => [⟨.imc, none⟩]
  | .addRoundKey rnd => [⟨.ark (Fin.ofNat 15 rnd.toNat), some rnd⟩]

/-- The table of 70_reset_and_hazards.md R312: body steps, extra steps when SBOX_VALID = 0, extra steps when
INV_VALID = 0. -/
def stepCounts : Instr → Nat × Nat × Nat
  | .nop => (1, 0, 0)
  | .expandKey => (60, 1, 0)
  | .encryptBlock => (58, 1, 0)
  | .decryptBlock => (58, 1, 1)
  | .genTables => (0, 1, 1)
  | .sboxLookup _ => (1, 1, 0)
  | .invSboxLookup _ => (1, 1, 1)
  | .gfMul _ _ => (1, 0, 0)
  | .loadState => (1, 0, 0)
  | .unloadState => (1, 0, 0)
  | .subBytes => (1, 1, 0)
  | .invSubBytes => (1, 1, 1)
  | .shiftRows => (1, 0, 0)
  | .invShiftRows => (1, 0, 0)
  | .mixColumns => (1, 0, 0)
  | .invMixColumns => (1, 0, 0)
  | .addRoundKey _ => (1, 0, 0)

/-- The value a read of offset `off` has at all times (20_memory.md R61, R63, R66, R73). -/
def AlwaysReads (s : State) (off : Nat) (v : Word) : Prop :=
  (∃ k : Fin 8, off = 0x000 + 4 * k.val ∧ v = s.key[k]) ∨
  (∃ k : Fin 4, off = 0x020 + 4 * k.val ∧ v = s.din[k]) ∨
  (off = 0x040 ∧ v = 0) ∨
  (off = 0x044 ∧ v = statusWord s.status) ∨
  (off % 4 = 0 ∧ (0x050 ≤ off ∧ off ≤ 0x0FC ∨ 0x1F0 ≤ off ∧ off ≤ 0xFFC) ∧ v = 0)

/-- The value a read of offset `off` has while BUSY = 0, at the offsets R73 leaves open while BUSY = 1. -/
def ReadsWhenIdle (s : State) (off : Nat) (v : Word) : Prop :=
  (∃ k : Fin 4, off = 0x030 + 4 * k.val ∧ v = s.dout[k]) ∨
  (off = 0x048 ∧ v = s.result) ∨
  (off = 0x04C ∧ v = fsmWord s.fsm) ∨
  (∃ i : Fin 60, off = 0x100 + 4 * i.val ∧ v = s.w[i])

/-- The offsets R73 leaves open while BUSY = 1: DOUTk, RESULT, FSM, Wi. -/
def OpenOffset (off : Nat) : Prop :=
  (∃ k : Fin 4, off = 0x030 + 4 * k.val) ∨ off = 0x048 ∨ off = 0x04C ∨ (∃ i : Fin 60, off = 0x100 + 4 * i.val)

/-- The next-state function on (PHASE, ROUND) of the forward sequence (43_driver.md R232). -/
def encNext : Phase × Nat → Option (Phase × Nat)
  | (.load, 0) => some (.ark, 0)
  | (.ark, r) => if r < 14 then some (.sb, r + 1) else if r = 14 then some (.unload, 14) else none
  | (.sb, r) => some (.sr, r)
  | (.sr, r) => if r < 14 then some (.mc, r) else if r = 14 then some (.ark, 14) else none
  | (.mc, r) => some (.ark, r)
  | _ => none

/-- The next-state function on (PHASE, ROUND) of the inverse sequence (43_driver.md R232). -/
def decNext : Phase × Nat → Option (Phase × Nat)
  | (.load, 14) => some (.ark, 14)
  | (.ark, r) =>
    if r = 14 then some (.isr, 13) else if 1 ≤ r ∧ r ≤ 13 then some (.imc, r)
    else if r = 0 then some (.unload, 0) else none
  | (.isr, r) => some (.isb, r)
  | (.isb, r) => some (.ark, r)
  | (.imc, r) => some (.isr, r - 1)
  | _ => none

/-- The value of a multiplier constant. -/
def constValue : GfConst → Byte
  | .c0 => 0
  | .c1 => 1
  | .c2 => 2
  | .c3 => 3
  | .c9 => 9
  | .c11 => 11
  | .c13 => 13
  | .c14 => 14

/-- opcode(MNEMONIC), rnd, x and c of a command, an omitted field being 0 (30_encoding.md R97, R105). -/
def lineFields : Instr → BitVec 5 × BitVec 4 × Byte × Byte
  | .nop => (0x00, 0, 0, 0)
  | .expandKey => (0x01, 0, 0, 0)
  | .encryptBlock => (0x02, 0, 0, 0)
  | .decryptBlock => (0x03, 0, 0, 0)
  | .genTables => (0x04, 0, 0, 0)
  | .sboxLookup x => (0x05, 0, x, 0)
  | .invSboxLookup x => (0x06, 0, x, 0)
  | .gfMul x c => (0x07, 0, x, c)
  | .loadState => (0x08, 0, 0, 0)
  | .unloadState => (0x09, 0, 0, 0)
  | .subBytes => (0x0A, 0, 0, 0)
  | .invSubBytes => (0x0B, 0, 0, 0)
  | .shiftRows => (0x0C, 0, 0, 0)
  | .invShiftRows => (0x0D, 0, 0, 0)
  | .mixColumns => (0x0E, 0, 0, 0)
  | .invMixColumns => (0x0F, 0, 0, 0)
  | .addRoundKey rnd => (0x10, rnd, 0, 0)

/-- The code of a phase (10_state.md R41). -/
def phaseCode : Phase → BitVec 4
  | .idle => 0
  | .genFwd => 1
  | .genInv => 2
  | .load => 3
  | .ark => 4
  | .sb => 5
  | .sr => 6
  | .mc => 7
  | .isb => 8
  | .isr => 9
  | .imc => 10
  | .unload => 11
  | .kexp => 12
  | .prim => 13

/-- The phase of a micro-step, row by row of the table of R41. -/
def phaseRow : MicroOp → Phase
  | .genFwd => .genFwd
  | .genInv => .genInv
  | .load => .load
  | .ark _ => .ark
  | .sb => .sb
  | .sr => .sr
  | .mc => .mc
  | .isb => .isb
  | .isr => .isr
  | .imc => .imc
  | .unload => .unload
  | .kexp _ => .kexp
  | .prim => .prim

/-- What FSM shows of a micro-step that carries a round number. -/
def shownState (m : MicroStep) : Option (Phase × Nat) := m.round.map fun r => (phaseRow m.op, r.toNat)

/-- 0x03^k in the field (40_gf_sbox.md R123). -/
def powerOf3 : Nat → Byte
  | 0 => 1
  | k + 1 => fmul (powerOf3 k) 3

end Sys2Proof.Machine

open Sys2Proof Sys2Proof.Machine

/-! ## Encoding and notation -/

/-- Decoding undoes encoding, for every command with every operand value (30_encoding.md R90, R97, R98). -/
def Obligations.DecodeUndoesEncode : Prop := ∀ i : Instr, decode (encode i) = .ok i

/-- A word that decodes is the word of the command it decodes to, so no two words stand for one command with given
operands (R96: "This makes the encoding of each command with given operands unique"). -/
def Obligations.EncodeUndoesDecode : Prop := ∀ (w : Word) (i : Instr), decode w = .ok i → encode i = w

/-- Decode is the function of R98: an error exactly on the words its checks refuse, and otherwise the command with
op = w[4:0], rnd = w[11:8], x = w[23:16], c = w[31:24]. -/
def Obligations.DecodeRefusesExactlyIllegalWords : Prop :=
  ∀ w : Word,
    (IllegalWord w → ∃ e, decode w = .error e) ∧
    (¬ IllegalWord w → ∃ i, decode w = .ok i ∧
      i.fields = ⟨w.extractLsb 4 0, w.extractLsb 11 8, w.extractLsb 23 16, w.extractLsb 31 24⟩)

/-- The encoding examples of R103, and one word of each other command of R97. -/
def Obligations.ExampleWordsDecode : Prop :=
  decode 0x00000001 = .ok .expandKey ∧ decode 0x00000110 = .ok (.addRoundKey 1) ∧
  decode 0x00000E10 = .ok (.addRoundKey 14) ∧ decode 0x00530005 = .ok (.sboxLookup 0x53) ∧
  decode 0x02570007 = .ok (.gfMul 0x57 2) ∧ decode 0x0E570007 = .ok (.gfMul 0x57 14) ∧
  (∃ e, decode 0x00000011 = .error e) ∧ (∃ e, decode 0x0001000A = .error e) ∧
  decode 0x00000000 = .ok .nop ∧ decode 0x00000002 = .ok .encryptBlock ∧ decode 0x00000003 = .ok .decryptBlock ∧
  decode 0x00000004 = .ok .genTables ∧ decode 0x00ED0006 = .ok (.invSboxLookup 0xED) ∧
  decode 0x00000008 = .ok .loadState ∧ decode 0x00000009 = .ok .unloadState ∧ decode 0x0000000A = .ok .subBytes ∧
  decode 0x0000000B = .ok .invSubBytes ∧ decode 0x0000000C = .ok .shiftRows ∧
  decode 0x0000000D = .ok .invShiftRows ∧ decode 0x0000000E = .ok .mixColumns ∧
  decode 0x0000000F = .ok .invMixColumns

/-- `cmd <MNEMONIC> rnd x c` is `wr CMD` with the word `zext_32(c) << 24 or zext_32(x) << 16 or zext_32(rnd) << 8 or
opcode(MNEMONIC)` (R105), and that word is the encoder's. -/
def Obligations.CommandLineWritesTheShiftedFields : Prop :=
  ∀ (i : Instr) (op : BitVec 5) (rnd : BitVec 4) (x c : Byte) (baseAddr : Nat) (gaps : List Nat),
    lineFields i = (op, rnd, x, c) →
      encode i = (c.setWidth 32 <<< 24) ||| (x.setWidth 32 <<< 16) ||| (rnd.setWidth 32 <<< 8) ||| op.setWidth 32 ∧
      lineOps baseAddr gaps (.cmd i.fields) = [.write (baseAddr + 0x040) 4 (encode i)]

/-- pack and byte (00_scope.md R17): pack puts b0 at 31:24 and b3 at 7:0, byte(w, k) = (w >> (8 * (3 - k)))[7:0], and
each undoes the other. -/
def Obligations.PackAndByteAreInverse : Prop :=
  (∀ b0 b1 b2 b3 : Byte,
    pack b0 b1 b2 b3 = b0 ++ b1 ++ b2 ++ b3 ∧
    (pack b0 b1 b2 b3).extractLsb 31 24 = b0 ∧ (pack b0 b1 b2 b3).extractLsb 7 0 = b3 ∧
    byteOf (pack b0 b1 b2 b3) 0 = b0 ∧ byteOf (pack b0 b1 b2 b3) 1 = b1 ∧
    byteOf (pack b0 b1 b2 b3) 2 = b2 ∧ byteOf (pack b0 b1 b2 b3) 3 = b3) ∧
  (∀ (w : Word) (k : Fin 4), byteOf w k = (w >>> (8 * (3 - k.val))).extractLsb 7 0) ∧
  (∀ w : Word, byteOf w 0 = w.extractLsb 31 24 ∧ pack (byteOf w 0) (byteOf w 1) (byteOf w 2) (byteOf w 3) = w)

/-- STATUS reads with each flag at its bit, ERR at 11:8 as its code, and 0 elsewhere (10_state.md R30,
60_exceptions.md R260); FSM reads with PHASE at 3:0 as its code, ROUND at 11:8, KIDX at 21:16, OP at 28:24 and 0
elsewhere (R40, R41). -/
def Obligations.StatusAndFsmWordLayout : Prop :=
  (∀ t : Status,
    (statusWord t).getLsbD 0 = t.busy ∧ (statusWord t).getLsbD 1 = t.done ∧
    (statusWord t).getLsbD 2 = t.keyValid ∧ (statusWord t).getLsbD 3 = t.sboxValid ∧
    (statusWord t).getLsbD 4 = t.invValid ∧ (statusWord t).getLsbD 5 = t.errSticky ∧
    (statusWord t).getLsbD 6 = t.ovr ∧ (statusWord t).getLsbD 7 = false ∧
    (statusWord t).extractLsb 11 8 =
      (match t.err with
        | .none => 0
        | .invalidArgument => 1
        | .uninitializedState => 2
        | .contractViolation => 3
        | .illegalCommand => 4) ∧
    (statusWord t).extractLsb 31 12 = 0) ∧
  (∀ f : Fsm,
    (fsmWord f).extractLsb 3 0 = phaseCode f.phase ∧ (fsmWord f).extractLsb 7 4 = 0 ∧
    (fsmWord f).extractLsb 11 8 = f.round ∧ (fsmWord f).extractLsb 15 12 = 0 ∧
    (fsmWord f).extractLsb 21 16 = f.kidx ∧ (fsmWord f).extractLsb 23 22 = 0 ∧
    (fsmWord f).extractLsb 28 24 = f.op ∧ (fsmWord f).extractLsb 31 29 = 0)

/-! ## The step: agents, host accesses, reset -/

/-- A step runs the decoded command: when it is the host's turn and its operation is an aligned 32-bit write to CMD of
a word that decodes, the step is `exec` of that command in the state without that operation (43_driver.md R220). The
list of the host's operations is the model's own data (log entry 5). -/
def Obligations.StepRunsTheDecodedCommand : Prop :=
  ∀ (s : State) (rest : List HostEvent) (w : Word) (i : Instr),
    NextOp s (.write (base s + 0x040) 4 w) rest → decode w = .ok i → step s = exec i { s with host := rest }

/-- Which agent moves (43_driver.md R225, model's choice of data: log entry 5): a pending operation whose delay is not
used up lets the engine perform a micro-step, and so does an empty list; the engine moves only while Q is non-empty;
with neither enabled nothing changes (R280). -/
def Obligations.EngineMovesWhileQueueIsNonEmpty : Prop :=
  (∀ (s : State) (d : Nat) (op : HostOp) (rest : List HostEvent),
    s.host = ⟨d + 1, op⟩ :: rest → s.queue ≠ [] → step s = .next (engineStep { s with host := ⟨d, op⟩ :: rest })) ∧
  (∀ s : State, s.host = [] → s.queue ≠ [] → step s = .next (engineStep s)) ∧
  (∀ s : State, s.host = [] → s.queue = [] → step s = .next s)

/-- n steps of the machine with no host operation pending are n steps of the engine (R224, R225). Two clauses are the
model's, not the rules': that the host's operations are a list, here the empty one (log entry 5), and, for n beyond the
length of Q, that an idle step is a next state, the same one (log entry 13, read from R280 by inference). -/
def Obligations.RunWithoutHostIsTheEngine : Prop :=
  ∀ (n : Nat) (s : State), s.host = [] → Host.Core.run Sys2Proof.core n s = .next (engineRun n s)

/-- One step of the engine (R224, R227, R228): the head micro-step leaves Q; while others remain, FSM shows its phase
and the round it carries, and only KEXP changes KIDX; after the last one the command is complete. The defensive stop
(R229) is the one exception, stated apart. -/
def Obligations.EngineStepShowsAndCompletes : Prop :=
  ∀ (s : State) (m : MicroStep) (rest : List MicroStep),
    s.queue = m :: rest →
    ¬((m.op = .isb ∨ (m.op = .prim ∧ s.latch.op = 0x06)) ∧ s.status.invValid = false) →
      (engineStep s).queue = rest ∧
      (engineStep s).fsm.round = m.round.getD s.fsm.round ∧
      (∀ i, m.op = .kexp i → (engineStep s).fsm.kidx = BitVec.ofNat 6 i.val) ∧
      ((∀ i, m.op ≠ .kexp i) → (engineStep s).fsm.kidx = s.fsm.kidx) ∧
      (engineStep s).fsm.op = s.fsm.op ∧ (engineStep s).status.err = s.status.err ∧
      (rest ≠ [] → (engineStep s).fsm.phase = phaseRow m.op ∧ (engineStep s).status.busy = s.status.busy ∧
        (engineStep s).status.done = s.status.done) ∧
      (rest = [] → (engineStep s).fsm.phase = .idle ∧ (engineStep s).status.busy = false ∧
        (engineStep s).status.done = true)

/-- The defensive stop (R229): an ISB or an INV_SBOX_LOOKUP PRIM that finds INV_VALID = 0 ends the command with
UNINITIALIZED_STATE; in no state that meets the engine's invariant does one find it. That it changes nothing else, and so
leaves FSM.ROUND, FSM.KIDX and FSM.OP, is the model's reading of R229, not the rule's words (log entry 10). -/
def Obligations.UninitializedInverseStopsTheCommand : Prop :=
  ∀ (s : State) (m : MicroStep) (rest : List MicroStep),
    s.queue = m :: rest → (m.op = .isb ∨ (m.op = .prim ∧ s.latch.op = 0x06)) →
      (s.status.invValid = false →
        engineStep s =
          { s with
            queue := []
            status := { s.status with
              err := .uninitializedState, errSticky := true, done := true, busy := false }
            fsm := { s.fsm with phase := .idle } }) ∧
      (EngineInv s → s.status.invValid = true)

/-- What each micro-step may write (10_state.md R22 to R28, R39): KEY, DIN and the latched fields never; DOUT only
UNLOAD; W and KEY_VALID only KEXP; SBOX only GEN_FWD; INV_SBOX only GEN_INV; RESULT only PRIM; S only LOAD and the
transforms. Nothing of the host's or of the model's own fields changes. -/
def Obligations.MicroStepFrame : Prop :=
  ∀ (s : State) (m : MicroStep) (rest : List MicroStep),
    s.queue = m :: rest →
      (engineStep s).key = s.key ∧ (engineStep s).din = s.din ∧ (engineStep s).latch = s.latch ∧
      (engineStep s).status.ovr = s.status.ovr ∧ (engineStep s).baseBlock = s.baseBlock ∧
      (engineStep s).host = s.host ∧ (engineStep s).readLog = s.readLog ∧ (engineStep s).draw = s.draw ∧
      (m.op ≠ .unload → (engineStep s).dout = s.dout) ∧
      ((∀ i, m.op ≠ .kexp i) → (engineStep s).w = s.w ∧ (engineStep s).status.keyValid = s.status.keyValid) ∧
      (m.op ≠ .genFwd → (engineStep s).sbox = s.sbox ∧ (engineStep s).status.sboxValid = s.status.sboxValid) ∧
      (m.op ≠ .genInv → (engineStep s).invSbox = s.invSbox ∧ (engineStep s).status.invValid = s.status.invValid) ∧
      (m.op ≠ .prim → (engineStep s).result = s.result) ∧
      ((m.op = .genFwd ∨ m.op = .genInv ∨ m.op = .unload ∨ m.op = .prim ∨ ∃ i, m.op = .kexp i) →
        (engineStep s).mat = s.mat)

/-- Host reads (20_memory.md R61, R62, R63, R66, R71): the host learns the register's value and nothing else changes;
KEY, DIN, CMD, STATUS and reserved offsets at all times, DOUT, RESULT, FSM and W while BUSY = 0. What the host learns
is kept in the model's own read log (log entry 16). -/
def Obligations.HostReadReturnsTheRegister : Prop :=
  ∀ (s : State) (rest : List HostEvent) (off : Nat) (v : Word),
    NextOp s (.read (base s + off) 4) rest →
    (AlwaysReads s off v ∨ s.status.busy = false ∧ ReadsWhenIdle s off v) →
      step s = .next { s with host := rest, readLog := (base s + off, v) :: s.readLog }

/-- While BUSY = 1 a read of DOUT, RESULT, FSM or W returns a free value and changes nothing of the core (R73). The
counter the free value is taken with is the model's own (log entry 3); the statement holds for every value of it. -/
def Obligations.BusyReadReturnsAFreeValue : Prop :=
  ∀ (s : State) (rest : List HostEvent) (off : Nat),
    NextOp s (.read (base s + off) 4) rest → s.status.busy = true → OpenOffset off →
      step s = .next { s with
        host := rest, readLog := (base s + off, Config.freeWord s.draw) :: s.readLog, draw := s.draw + 1 }

/-- Host writes while BUSY = 0 (10_state.md R22, R23; 20_memory.md R63, R66): KEYk and DINk take the value, with no
effect on W or KEY_VALID; a write to a read-only register or a reserved offset has no effect. -/
def Obligations.IdleHostWriteSetsKeyOrDin : Prop :=
  ∀ (s : State) (rest : List HostEvent) (off : Nat) (v : Word),
    NextOp s (.write (base s + off) 4 v) rest → s.status.busy = false →
      (∀ k : Fin 8, off = 0x000 + 4 * k.val → step s = .next { s with host := rest, key := s.key.set k v }) ∧
      (∀ k : Fin 4, off = 0x020 + 4 * k.val → step s = .next { s with host := rest, din := s.din.set k v }) ∧
      (off % 4 = 0 ∧ 0x030 ≤ off ∧ off < 0x1000 ∧ off ≠ 0x040 → step s = .next { s with host := rest })

/-- Host writes while BUSY = 1 (20_memory.md R72): a write to KEY, DIN or CMD is dropped and sets OVR; any other
aligned write has no effect. -/
def Obligations.BusyHostWriteIsDropped : Prop :=
  ∀ (s : State) (rest : List HostEvent) (off : Nat) (v : Word),
    NextOp s (.write (base s + off) 4 v) rest → s.status.busy = true → off % 4 = 0 → off < 0x1000 →
      (off < 0x030 ∨ off = 0x040 →
        step s = .next { s with host := rest, status := { s.status with ovr := true } }) ∧
      (¬(off < 0x030 ∨ off = 0x040) → step s = .next { s with host := rest })

/-- An access of the window that is not an aligned 32-bit access is a BusError (20_memory.md R64, R65). -/
def Obligations.UnsupportedAccessIsABusError : Prop :=
  ∀ (s : State) (rest : List HostEvent) (addr bytes : Nat) (v : Word),
    NextOp s (.read addr bytes) rest ∨ NextOp s (.write addr bytes v) rest →
    base s ≤ addr → addr < base s + 4096 → bytes ≠ 4 ∨ (addr - base s) % 4 ≠ 0 →
      step s = .fault (.busError addr)

/-- An access outside the window stops the run. The model's choice: log entry 7; R60 says only that the window is
BASE .. BASE + 0xFFF. -/
def Obligations.AccessOutsideWindowFaults : Prop :=
  ∀ (s : State) (rest : List HostEvent) (addr bytes : Nat) (v : Word),
    NextOp s (.read addr bytes) rest ∨ NextOp s (.write addr bytes v) rest →
    (addr < base s ∨ base s + 4096 ≤ addr) → step s = .fault (.outsideWindow addr)

/-- Reset at any point (70_reset_and_hazards.md R300, R301): every piece of the core's state takes its reset value,
the tables' contents being unspecified. BASE, the pending operations, the read log and the draw counter are the model's
own fields (log entries 2, 4, 5). -/
def Obligations.ResetEventRestoresResetValues : Prop :=
  ∀ (s : State) (rest : List HostEvent),
    NextOp s .reset rest →
      ∃ (sb isb : Table), step s = .next { State.reset with
        sbox := sb, invSbox := isb, baseBlock := s.baseBlock, host := rest, readLog := s.readLog, draw := s.draw + 1 }

/-- The state right after reset (10_state.md R50), in the words of the rule. The tables' contents and the model's own
fields are left out: their values are choices (log entries 1, 3, 4, 5, 16). -/
def Obligations.ResetStateValues : Prop :=
  (∀ k : Fin 8, State.reset.key[k] = 0) ∧ (∀ k : Fin 4, State.reset.din[k] = 0) ∧
  (∀ k : Fin 4, State.reset.dout[k] = 0) ∧ (∀ r c : Fin 4, cell State.reset.mat r c = 0) ∧
  (∀ i : Fin 60, State.reset.w[i] = 0) ∧ statusWord State.reset.status = 0 ∧ State.reset.result = 0 ∧
  fsmWord State.reset.fsm = 0 ∧ State.reset.fsm.phase = .idle ∧ State.reset.queue = [] ∧
  State.reset.latch = ⟨0, 0, 0, 0⟩ ∧ State.reset.status.sboxValid = false ∧ State.reset.status.invValid = false

/-- The host cannot disturb a running command (70_reset_and_hazards.md R306; 20_memory.md R71, R72): an operation other
than reset, performed while BUSY = 1, changes nothing of the core but OVR. The host's operations, the read log and the
draw counter are the model's own fields. -/
def Obligations.HostCannotDisturbARunningCommand : Prop :=
  ∀ (s t : State) (op : HostOp) (rest : List HostEvent),
    NextOp s op rest → op ≠ .reset → s.status.busy = true → step s = .next t →
      t = { s with
        host := t.host, readLog := t.readLog, draw := t.draw
        status := { s.status with ovr := t.status.ovr } }

/-- KEY and DIN change only by a host write while BUSY = 0, or by reset: no command changes them (10_state.md R22,
R23; 20_memory.md R72; 70_reset_and_hazards.md R309). -/
def Obligations.OnlyTheHostChangesKeyAndDin : Prop :=
  ∀ s t : State, step s = .next t → (t.key ≠ s.key ∨ t.din ≠ s.din) →
    ∃ op rest, NextOp s op rest ∧
      (op = .reset ∨ s.status.busy = false ∧ ∃ off v, off < 0x030 ∧ op = .write (base s + off) 4 v)

/-- "Reset is the only way to clear ERR_STICKY and OVR and the only way to make SBOX_VALID or INV_VALID 0 again"
(70_reset_and_hazards.md R303): every other step keeps each of them, no step of a command changes a table that is valid
to another, and reset clears all four. -/
def Obligations.OnlyResetClearsStickyFlags : Prop :=
  (∀ s t : State, step s = .next t → (∀ rest, ¬ NextOp s .reset rest) →
    (s.status.errSticky = true → t.status.errSticky = true) ∧ (s.status.ovr = true → t.status.ovr = true) ∧
    (s.status.sboxValid = true → t.status.sboxValid = true) ∧ (s.status.invValid = true → t.status.invValid = true) ∧
    (EngineInv s → s.status.sboxValid = true → t.sbox = s.sbox) ∧
    (EngineInv s → s.status.invValid = true → t.invSbox = s.invSbox)) ∧
  (∀ (s t : State) (rest : List HostEvent), step s = .next t → NextOp s .reset rest →
    t.status.errSticky = false ∧ t.status.ovr = false ∧ t.status.sboxValid = false ∧ t.status.invValid = false)

/-- `wait` ends (30_encoding.md R106; 70_reset_and_hazards.md R311): after finitely many steps the loop is left, with
BUSY = 0. That the loop is one host operation with its gaps is the model's choice (log entries 5 and 14). -/
def Obligations.WaitTerminates : Prop :=
  ∀ (s : State) (d : Nat) (gaps : List Nat) (rest : List HostEvent),
    EngineInv s → s.host = ⟨d, .wait gaps⟩ :: rest →
      ∃ n t, Host.Core.run Sys2Proof.core n s = .next t ∧ t.host = rest ∧ t.status.busy = false

/-! ## Acceptance and rejection of a command -/

/-- A command whose checks pass is accepted (43_driver.md R222, R223, R226): the fields are latched, ERR and DONE
cleared, KEY_VALID cleared by EXPAND_KEY, Q is the table generation followed by the body, and BUSY is 1 unless Q is
empty, when the command is complete. -/
def Obligations.AcceptedCommandQueuesItsMicroSteps : Prop :=
  ∀ (i : Instr) (s : State),
    s.status.busy = false → acceptanceError s i = none →
      ∃ p, IsTablePrefix i s.status p ∧
        (p ++ bodyOf i ≠ [] → exec i s = .next { s with
          status := { s.status with
            busy := true, done := false, err := .none, keyValid := s.status.keyValid && i != .expandKey }
          fsm := { s.fsm with op := i.fields.op }
          latch := i.fields
          queue := p ++ bodyOf i }) ∧
        (p ++ bodyOf i = [] → exec i s = .next { s with
          status := { s.status with busy := false, done := true, err := .none }
          fsm := { s.fsm with op := i.fields.op, phase := .idle }
          latch := i.fields
          queue := [] })

/-- A command word is rejected with exactly the effects of 60_exceptions.md R266: a command whose checks fail, with
the code of the first failing check (R261, R263), and a word that does not decode, with ILLEGAL_COMMAND (R264). -/
def Obligations.RejectedWordChangesOnlyErrorState : Prop :=
  (∀ (i : Instr) (s : State) (e : ErrorCode),
    s.status.busy = false → acceptanceError s i = some e → exec i s = .next (rejected e i.fields.op s)) ∧
  (∀ (s : State) (rest : List HostEvent) (w : Word),
    NextOp s (.write (base s + 0x040) 4 w) rest → s.status.busy = false → IllegalWord w →
      step s = .next (rejected .illegalCommand (w.extractLsb 4 0) { s with host := rest }))

/-- A command presented while BUSY = 1 is dropped (43_driver.md R220, R221). -/
def Obligations.BusyCommandIsDropped : Prop :=
  ∀ (i : Instr) (s : State), s.status.busy = true →
    exec i s = .next { s with status := { s.status with ovr := true } }

/-- The frame of every command's presentation: whatever it is and whatever the outcome, the data registers, S, W, the
tables, RESULT, FSM.ROUND, FSM.KIDX and the table flags keep their values (60_exceptions.md R266; 43_driver.md R222:
"before any state but STATUS and FSM changes"). -/
def Obligations.PresentationFrame : Prop :=
  ∀ (i : Instr) (s t : State), exec i s = .next t →
    t.key = s.key ∧ t.din = s.din ∧ t.dout = s.dout ∧ t.mat = s.mat ∧ t.w = s.w ∧ t.sbox = s.sbox ∧
    t.invSbox = s.invSbox ∧ t.result = s.result ∧ t.fsm.round = s.fsm.round ∧ t.fsm.kidx = s.fsm.kidx ∧
    t.status.sboxValid = s.status.sboxValid ∧ t.status.invValid = s.status.invValid ∧
    (i ≠ .expandKey → t.status.keyValid = s.status.keyValid) ∧
    t.baseBlock = s.baseBlock ∧ t.host = s.host ∧ t.readLog = s.readLog ∧ t.draw = s.draw

/-- The number of micro-steps of an accepted command is the one R312 tabulates: it depends on the opcode and the
validity flags alone. A rejected word takes none and BUSY is never 1. -/
def Obligations.MicroStepCountIsTabulated : Prop :=
  ∀ (i : Instr) (s : State), s.status.busy = false → s.queue = [] →
    ∃ t, exec i s = .next t ∧
      (acceptanceError s i = none →
        t.queue.length = (stepCounts i).1 + (if s.status.sboxValid then 0 else (stepCounts i).2.1) +
          (if s.status.invValid then 0 else (stepCounts i).2.2)) ∧
      (acceptanceError s i ≠ none → t.queue = [] ∧ t.status.busy = false)

/-! ## What each command does, from its acceptance to its completion -/

/-- NOP completes and changes nothing but the common effects (43_driver.md R240). -/
def Obligations.NopCompletes : Prop :=
  ∀ s : State, s.status.busy = false → ∃ t, exec .nop s = .next t ∧ drain t = completed .nop s

/-- GEN_TABLES leaves both tables generated (40_gf_sbox.md R142). -/
def Obligations.GenTablesGeneratesBothTables : Prop :=
  ∀ s : State, TablesOk s → s.status.busy = false →
    ∃ t, exec .genTables s = .next t ∧ drain t = withTables (completed .genTables s)

/-- SBOX_LOOKUP: RESULT <- zext_32(SBOX[X]), for every X (R143). -/
def Obligations.SboxLookupResult : Prop :=
  ∀ (x : Byte) (s : State), TablesOk s → s.status.busy = false →
    ∃ t, exec (.sboxLookup x) s = .next t ∧
      drain t = { withSbox (completed (.sboxLookup x) s) with result := (look genSbox x).setWidth 32 }

/-- INV_SBOX_LOOKUP: RESULT <- zext_32(INV_SBOX[X]), for every X (R144). -/
def Obligations.InvSboxLookupResult : Prop :=
  ∀ (x : Byte) (s : State), TablesOk s → s.status.busy = false →
    ∃ t, exec (.invSboxLookup x) s = .next t ∧
      drain t = { withTables (completed (.invSboxLookup x) s) with result := (look invSboxTable x).setWidth 32 }

/-- GF_MUL: RESULT is the field product of X and C, for every X and every C of the set (R128, R125). -/
def Obligations.GfMulResult : Prop :=
  ∀ (x c : Byte) (s : State), c ∈ [0x00, 0x01, 0x02, 0x03, 0x09, 0x0B, 0x0D, 0x0E] → s.status.busy = false →
    ∃ t, exec (.gfMul x c) s = .next t ∧
      drain t = { completed (.gfMul x c) s with result := (fmul x c).setWidth 32 }

/-- LOAD_STATE: S[r][c] <- byte(DIN[c], r) (42_round_transforms.md R181, R182). -/
def Obligations.LoadStateResult : Prop :=
  ∀ s : State, s.status.busy = false →
    ∃ t m, exec .loadState s = .next t ∧ drain t = { completed .loadState s with mat := m } ∧
      ∀ r c : Fin 4, cell m r c = byteOf s.din[c] r

/-- UNLOAD_STATE: DOUT[c] <- pack(S[0][c], S[1][c], S[2][c], S[3][c]) (R183, R184). -/
def Obligations.UnloadStateResult : Prop :=
  ∀ s : State, s.status.busy = false →
    ∃ t d, exec .unloadState s = .next t ∧ drain t = { completed .unloadState s with dout := d } ∧
      ∀ c : Fin 4, d[c] = pack (cell s.mat 0 c) (cell s.mat 1 c) (cell s.mat 2 c) (cell s.mat 3 c)

/-- SUB_BYTES: S[r][c] <- SBOX[S[r][c]] (R185, R187). -/
def Obligations.SubBytesResult : Prop :=
  ∀ s : State, TablesOk s → s.status.busy = false →
    ∃ t m, exec .subBytes s = .next t ∧ drain t = { withSbox (completed .subBytes s) with mat := m } ∧
      ∀ r c : Fin 4, cell m r c = look genSbox (cell s.mat r c)

/-- INV_SUB_BYTES: S[r][c] <- INV_SBOX[S[r][c]] (R186, R197). -/
def Obligations.InvSubBytesResult : Prop :=
  ∀ s : State, TablesOk s → s.status.busy = false →
    ∃ t m, exec .invSubBytes s = .next t ∧ drain t = { withTables (completed .invSubBytes s) with mat := m } ∧
      ∀ r c : Fin 4, cell m r c = look invSboxTable (cell s.mat r c)

/-- SHIFT_ROWS: S[r][c] <- S[r][(c + r) mod 4] (R188, R190). -/
def Obligations.ShiftRowsResult : Prop :=
  ∀ s : State, s.status.busy = false →
    ∃ t m, exec .shiftRows s = .next t ∧ drain t = { completed .shiftRows s with mat := m } ∧
      ∀ r c c' : Fin 4, c'.val = (c.val + r.val) % 4 → cell m r c = cell s.mat r c'

/-- INV_SHIFT_ROWS: S[r][c] <- S[r][(c + 4 - r) mod 4] (R189, R198). -/
def Obligations.InvShiftRowsResult : Prop :=
  ∀ s : State, s.status.busy = false →
    ∃ t m, exec .invShiftRows s = .next t ∧ drain t = { completed .invShiftRows s with mat := m } ∧
      ∀ r c c' : Fin 4, c'.val = (c.val + 4 - r.val) % 4 → cell m r c = cell s.mat r c'

/-- MIX_COLUMNS: each column is replaced by its product with the matrix of R191, in the field (R191, R194). -/
def Obligations.MixColumnsResult : Prop :=
  ∀ s : State, s.status.busy = false →
    ∃ t m, exec .mixColumns s = .next t ∧ drain t = { completed .mixColumns s with mat := m } ∧
      ∀ c : Fin 4,
        cell m 0 c = fmul (cell s.mat 0 c) 2 ^^^ fmul (cell s.mat 1 c) 3 ^^^ cell s.mat 2 c ^^^ cell s.mat 3 c ∧
        cell m 1 c = cell s.mat 0 c ^^^ fmul (cell s.mat 1 c) 2 ^^^ fmul (cell s.mat 2 c) 3 ^^^ cell s.mat 3 c ∧
        cell m 2 c = cell s.mat 0 c ^^^ cell s.mat 1 c ^^^ fmul (cell s.mat 2 c) 2 ^^^ fmul (cell s.mat 3 c) 3 ∧
        cell m 3 c = fmul (cell s.mat 0 c) 3 ^^^ cell s.mat 1 c ^^^ cell s.mat 2 c ^^^ fmul (cell s.mat 3 c) 2

/-- INV_MIX_COLUMNS: each column is replaced by its product with the matrix of R192, in the field (R192, R199). -/
def Obligations.InvMixColumnsResult : Prop :=
  ∀ s : State, s.status.busy = false →
    ∃ t m, exec .invMixColumns s = .next t ∧ drain t = { completed .invMixColumns s with mat := m } ∧
      ∀ c : Fin 4,
        cell m 0 c = fmul (cell s.mat 0 c) 14 ^^^ fmul (cell s.mat 1 c) 11 ^^^ fmul (cell s.mat 2 c) 13 ^^^
          fmul (cell s.mat 3 c) 9 ∧
        cell m 1 c = fmul (cell s.mat 0 c) 9 ^^^ fmul (cell s.mat 1 c) 14 ^^^ fmul (cell s.mat 2 c) 11 ^^^
          fmul (cell s.mat 3 c) 13 ∧
        cell m 2 c = fmul (cell s.mat 0 c) 13 ^^^ fmul (cell s.mat 1 c) 9 ^^^ fmul (cell s.mat 2 c) 14 ^^^
          fmul (cell s.mat 3 c) 11 ∧
        cell m 3 c = fmul (cell s.mat 0 c) 11 ^^^ fmul (cell s.mat 1 c) 13 ^^^ fmul (cell s.mat 2 c) 9 ^^^
          fmul (cell s.mat 3 c) 14

/-- ADD_ROUND_KEY: S[r][c] is xored with byte r of W[4 RND + c], for every RND up to 14, and FSM.ROUND <- RND (R195,
R196). -/
def Obligations.AddRoundKeyResult : Prop :=
  ∀ (rnd : BitVec 4) (s : State), rnd.toNat ≤ 14 → s.status.keyValid = true → s.status.busy = false →
    ∃ t m, exec (.addRoundKey rnd) s = .next t ∧
      drain t = { completed (.addRoundKey rnd) s with
        mat := m, fsm := { (completed (.addRoundKey rnd) s).fsm with round := rnd } } ∧
      ∀ (r c : Fin 4) (i : Fin 60), i.val = 4 * rnd.toNat + c.val →
        cell m r c = cell s.mat r c ^^^ byteOf s.w[i] r

/-- EXPAND_KEY leaves W = ExpandKey(KEY) and KEY_VALID = 1 (41_key_schedule.md R168, R169, R170). -/
def Obligations.ExpandKeyResult : Prop :=
  ∀ s : State, TablesOk s → s.status.busy = false →
    ∃ t, exec .expandKey s = .next t ∧
      drain t = { withSbox (completed .expandKey s) with
        w := expandKey s.key
        status := { (withSbox (completed .expandKey s)).status with keyValid := true }
        fsm := { (completed .expandKey s).fsm with kidx := 59 } }

/-- ENCRYPT_BLOCK leaves DOUT = Encrypt(DIN, W), S = Load(DOUT) and FSM.ROUND = 14 (43_driver.md R233, R235, R236). -/
def Obligations.EncryptBlockResult : Prop :=
  ∀ s : State, TablesOk s → s.status.busy = false → s.status.keyValid = true →
    ∃ t, exec .encryptBlock s = .next t ∧
      drain t = { withSbox (completed .encryptBlock s) with
        dout := encrypt s.din s.w
        mat := loadBlock (encrypt s.din s.w)
        fsm := { (completed .encryptBlock s).fsm with round := 14 } }

/-- DECRYPT_BLOCK leaves DOUT = Decrypt(DIN, W), S = Load(DOUT) and FSM.ROUND = 0 (R234, R235, R236). -/
def Obligations.DecryptBlockResult : Prop :=
  ∀ s : State, TablesOk s → s.status.busy = false → s.status.keyValid = true →
    ∃ t, exec .decryptBlock s = .next t ∧
      drain t = { withTables (completed .decryptBlock s) with
        dout := decrypt s.din s.w
        mat := loadBlock (decrypt s.din s.w)
        fsm := { (completed .decryptBlock s).fsm with round := 0 } }

/-! ## The algorithm -/

/-- gmul is field multiplication by the constant, and 4 and 8 are no constants (40_gf_sbox.md R125). -/
def Obligations.ConstantMultiplierIsFieldProduct : Prop :=
  (∀ (x : Byte) (c : GfConst), gmul x c = fmul x (constValue c)) ∧
  (∀ (b : Byte) (c : GfConst), gfConstOf b = some c ↔ b = constValue c) ∧ gfConstOf 4 = none ∧ gfConstOf 8 = none

/-- The laws of field arithmetic (R123): fmul is commutative and associative, distributes over xor, has 0x01 as its
identity and 0x00 as its zero; every non-zero element has exactly one inverse, that of 0x03 being 0xF6; and the powers
of 0x03 run through all 255 non-zero bytes. -/
def Obligations.FieldLaws : Prop :=
  (∀ a b : Byte, fmul a b = fmul b a) ∧ (∀ a b c : Byte, fmul (fmul a b) c = fmul a (fmul b c)) ∧
  (∀ a b c : Byte, fmul a (b ^^^ c) = fmul a b ^^^ fmul a c) ∧ (∀ a : Byte, fmul a 1 = a) ∧
  (∀ a : Byte, fmul a 0 = 0) ∧ (∀ a : Byte, a ≠ 0 → ∃ b, fmul a b = 1 ∧ ∀ b', fmul a b' = 1 → b' = b) ∧
  fmul 0x03 0xF6 = 1 ∧ (∀ a : Byte, a ≠ 0 → ∃ k : Fin 256, 1 ≤ k.val ∧ powerOf3 k.val = a) ∧ powerOf3 255 = 1

/-- The generated table is the affine transform of the inverse, and 0x63 at 0 (R133: "for x ≠ 0, T[x] =
affine(x^-1), and T[0] = 0x63 = affine(0x00)"). -/
def Obligations.SboxIsAffineOfTheInverse : Prop :=
  (∀ x y : Byte, fmul x y = 1 → look genSbox x = affine y) ∧ look genSbox 0 = 0x63 ∧ affine 0 = 0x63

/-- The forward table is a permutation and the inverse table undoes it, both ways; no byte maps to itself or to its
complement (R135, R137, R140). -/
def Obligations.InverseTableUndoesForwardTable : Prop :=
  (∀ x : Byte, look invSboxTable (look genSbox x) = x) ∧ (∀ y : Byte, look genSbox (look invSboxTable y) = y) ∧
  (∀ x : Byte, look genSbox x ≠ x ∧ look genSbox x ≠ x ^^^ 0xFF)

/-- The schedule satisfies the source's recurrence (41_key_schedule.md R160, R165), for every key. -/
def Obligations.ScheduleRecurrence : Prop :=
  ∀ key : Vector Word 8,
    (∀ (k : Fin 8) (i : Fin 60), i.val = k.val → (expandKey key)[i] = key[k]) ∧
    (∀ (i p q : Fin 60), 8 ≤ i.val → p.val = i.val - 1 → q.val = i.val - 8 →
      (i.val % 8 = 0 → ∀ j : Fin 10, j.val = i.val / 8 - 1 → (expandKey key)[i] =
        (expandKey key)[q] ^^^ (subWord genSbox (rotWord (expandKey key)[p]) ^^^ (rcon[j].setWidth 32 <<< 24))) ∧
      (i.val % 8 ≠ 0 → i.val % 4 = 0 → (expandKey key)[i] =
        (expandKey key)[q] ^^^ subWord genSbox (expandKey key)[p]) ∧
      (i.val % 8 ≠ 0 → i.val % 4 ≠ 0 → (expandKey key)[i] = (expandKey key)[q] ^^^ (expandKey key)[p]))

/-- The two sequences follow the next-state function of 43_driver.md R232, have 58 micro-steps each and end in
UNLOAD. -/
def Obligations.SequencesFollowTheStateMachine : Prop :=
  encSeq.length = 58 ∧ decSeq.length = 58 ∧
  (encSeq.head?.bind shownState = some (.load, 0)) ∧ (decSeq.head?.bind shownState = some (.load, 14)) ∧
  (encSeq.getLast?.bind shownState = some (.unload, 14)) ∧ (decSeq.getLast?.bind shownState = some (.unload, 0)) ∧
  (∀ n : Fin 57, (encSeq[n.val]?.bind shownState).bind encNext = encSeq[n.val + 1]?.bind shownState) ∧
  (∀ n : Fin 57, (decSeq[n.val]?.bind shownState).bind decNext = decSeq[n.val + 1]?.bind shownState)

/-- The transforms and their inverses undo each other, for every state matrix (42_round_transforms.md R200). -/
def Obligations.TransformsRoundTrip : Prop :=
  (∀ m : Block, invShiftRows (shiftRows m) = m ∧ shiftRows (invShiftRows m) = m) ∧
  (∀ m : Block, invMixColumns (mixColumns m) = m ∧ mixColumns (invMixColumns m) = m) ∧
  (∀ m : Block, subBytes invSboxTable (subBytes genSbox m) = m ∧ subBytes genSbox (subBytes invSboxTable m) = m) ∧
  (∀ (w : Vector Word 60) (n : Fin 15) (m : Block), addRoundKey w n (addRoundKey w n m) = m) ∧
  (∀ d : Vector Word 4, unloadBlock (loadBlock d) = d)

/-- Decrypt undoes Encrypt and Encrypt undoes Decrypt, for every block and every schedule, that of every key among
them (43_driver.md R237, "the primary correctness property of the whole core"). -/
def Obligations.DecryptUndoesEncrypt : Prop :=
  ∀ (b : Vector Word 4) (w : Vector Word 60), decrypt (encrypt b w) w = b ∧ encrypt (decrypt b w) w = b

/-- On the machine: encrypting the block in DIN, writing DOUT to DIN and decrypting gives the block back, from every
idle state with a valid schedule (R237, R233, R234). -/
def Obligations.MachineDecryptsWhatItEncrypts : Prop :=
  ∀ s : State, TablesOk s → s.status.busy = false → s.status.keyValid = true →
    ∃ t u, exec .encryptBlock s = .next t ∧
      exec .decryptBlock { drain t with din := (drain t).dout } = .next u ∧ (drain u).dout = s.din

/-! ## Invariants -/

/-- The engine's and the schedule's invariants hold after reset (10_state.md R44, R45, R46, R50). -/
def Obligations.InvariantsHoldAtReset : Prop := EngineInv State.reset ∧ ScheduleInv State.reset

/-- Every step keeps the engine's invariant: BUSY = 1 exactly while Q is non-empty, PHASE is IDLE while BUSY = 0, the
tables hold what their flags say, no micro-step finds a table it reads not generated, and UNINITIALIZED_STATE is never
written (10_state.md R31, R44, R46; 60_exceptions.md R262). -/
def Obligations.EngineInvariantKept : Prop := ∀ s t : State, EngineInv s → step s = .next t → EngineInv t

/-- Every step keeps the schedule's invariant: with KEY_VALID = 1, W is the schedule of some key, and while EXPAND_KEY
runs the words written so far are the schedule of the key in KEY (10_state.md R33, R45). -/
def Obligations.ScheduleInvariantKept : Prop :=
  ∀ s t : State, EngineInv s → ScheduleInv s → step s = .next t → ScheduleInv t

/-- Every step keeps RESULT[31:8] = 0 (10_state.md R39: "bits [31:8] read 0"). -/
def Obligations.ResultStaysAByte : Prop :=
  ResultIsByte State.reset ∧ ∀ s t : State, ResultIsByte s → step s = .next t → ResultIsByte t
end

