-- ==== Sys2Proof/Laws/Decode.lean ====
section
/-! SUPPORT. The fields of an assembled command word, and the word of the fields read from it. -/

namespace Sys2Proof

/-- A bit of an assembled word, as a bit of the fields side by side. -/
theorem assemble_bit (f : CmdFields) (i : Nat) :
    (assemble f).getLsbD i = (f.c ++ f.x ++ 0#4 ++ f.rnd ++ 0#3 ++ f.op).getLsbD i := rfl

theorem opField_assemble (f : CmdFields) : opField (assemble f) = f.op := by
  apply BitVec.eq_of_getLsbD_eq
  intro i hi
  simp only [opField, BitVec.getLsbD_extractLsb', assemble_bit, BitVec.getLsbD_append]
  interval_cases i <;> simp

theorem rndField_assemble (f : CmdFields) : rndField (assemble f) = f.rnd := by
  apply BitVec.eq_of_getLsbD_eq
  intro i hi
  simp only [rndField, BitVec.getLsbD_extractLsb', assemble_bit, BitVec.getLsbD_append]
  interval_cases i <;> simp

theorem rsv0Field_assemble (f : CmdFields) : rsv0Field (assemble f) = 0 := by
  apply BitVec.eq_of_getLsbD_eq
  intro i hi
  simp only [rsv0Field, BitVec.getLsbD_extractLsb', assemble_bit, BitVec.getLsbD_append]
  interval_cases i <;> simp

theorem rsv1Field_assemble (f : CmdFields) : rsv1Field (assemble f) = 0 := by
  apply BitVec.eq_of_getLsbD_eq
  intro i hi
  simp only [rsv1Field, BitVec.getLsbD_extractLsb', assemble_bit, BitVec.getLsbD_append]
  interval_cases i <;> simp

theorem xField_assemble (f : CmdFields) : xField (assemble f) = f.x := by
  apply BitVec.eq_of_getLsbD_eq
  intro i hi
  simp only [xField, BitVec.getLsbD_extractLsb', assemble_bit, BitVec.getLsbD_append]
  interval_cases i <;> simp

theorem cField_assemble (f : CmdFields) : cField (assemble f) = f.c := by
  apply BitVec.eq_of_getLsbD_eq
  intro i hi
  simp only [cField, BitVec.getLsbD_extractLsb', assemble_bit, BitVec.getLsbD_append]
  interval_cases i <;> simp

/-- A word with no reserved bit set is the word of its fields. -/
theorem assemble_fieldsOf (w : Word) (h0 : rsv0Field w = 0) (h1 : rsv1Field w = 0) : assemble (fieldsOf w) = w := by
  apply BitVec.eq_of_getLsbD_eq
  intro i hi
  have a0 : ∀ k, (rsv0Field w).getLsbD k = false := by simp [h0]
  have a1 : ∀ k, (rsv1Field w).getLsbD k = false := by simp [h1]
  simp only [rsv0Field, rsv1Field, BitVec.getLsbD_extractLsb'] at a0 a1
  have := a0 0; have := a0 1; have := a0 2; have := a1 0; have := a1 1; have := a1 2; have := a1 3
  simp only [fieldsOf, opField, rndField, xField, cField, assemble_bit, BitVec.getLsbD_append,
    BitVec.getLsbD_extractLsb']
  interval_cases i <;> simp_all

end Sys2Proof
end

