-- ==== Sys2Proof/Laws/State.lean ====
section
/-! SUPPORT. What each write of one piece of state leaves in each field: one lemma per field per update, so that no
later proof unfolds a record update. -/

namespace Sys2Proof.Machine

variable (s : State)

/-! ## setKey -/

@[simp] theorem setKey_key (k : Fin 8) (v : Word) : (setKey k v s).key = s.key.set k v := rfl
@[simp] theorem setKey_din (k : Fin 8) (v : Word) : (setKey k v s).din = s.din := rfl
@[simp] theorem setKey_dout (k : Fin 8) (v : Word) : (setKey k v s).dout = s.dout := rfl
@[simp] theorem setKey_mat (k : Fin 8) (v : Word) : (setKey k v s).mat = s.mat := rfl
@[simp] theorem setKey_w (k : Fin 8) (v : Word) : (setKey k v s).w = s.w := rfl
@[simp] theorem setKey_sbox (k : Fin 8) (v : Word) : (setKey k v s).sbox = s.sbox := rfl
@[simp] theorem setKey_invSbox (k : Fin 8) (v : Word) : (setKey k v s).invSbox = s.invSbox := rfl
@[simp] theorem setKey_status (k : Fin 8) (v : Word) : (setKey k v s).status = s.status := rfl
@[simp] theorem setKey_result (k : Fin 8) (v : Word) : (setKey k v s).result = s.result := rfl
@[simp] theorem setKey_fsm (k : Fin 8) (v : Word) : (setKey k v s).fsm = s.fsm := rfl
@[simp] theorem setKey_queue (k : Fin 8) (v : Word) : (setKey k v s).queue = s.queue := rfl
@[simp] theorem setKey_latch (k : Fin 8) (v : Word) : (setKey k v s).latch = s.latch := rfl
@[simp] theorem setKey_baseBlock (k : Fin 8) (v : Word) : (setKey k v s).baseBlock = s.baseBlock := rfl
@[simp] theorem setKey_host (k : Fin 8) (v : Word) : (setKey k v s).host = s.host := rfl
@[simp] theorem setKey_readLog (k : Fin 8) (v : Word) : (setKey k v s).readLog = s.readLog := rfl
@[simp] theorem setKey_draw (k : Fin 8) (v : Word) : (setKey k v s).draw = s.draw := rfl

/-! ## setDin -/

@[simp] theorem setDin_key (k : Fin 4) (v : Word) : (setDin k v s).key = s.key := rfl
@[simp] theorem setDin_din (k : Fin 4) (v : Word) : (setDin k v s).din = s.din.set k v := rfl
@[simp] theorem setDin_dout (k : Fin 4) (v : Word) : (setDin k v s).dout = s.dout := rfl
@[simp] theorem setDin_mat (k : Fin 4) (v : Word) : (setDin k v s).mat = s.mat := rfl
@[simp] theorem setDin_w (k : Fin 4) (v : Word) : (setDin k v s).w = s.w := rfl
@[simp] theorem setDin_sbox (k : Fin 4) (v : Word) : (setDin k v s).sbox = s.sbox := rfl
@[simp] theorem setDin_invSbox (k : Fin 4) (v : Word) : (setDin k v s).invSbox = s.invSbox := rfl
@[simp] theorem setDin_status (k : Fin 4) (v : Word) : (setDin k v s).status = s.status := rfl
@[simp] theorem setDin_result (k : Fin 4) (v : Word) : (setDin k v s).result = s.result := rfl
@[simp] theorem setDin_fsm (k : Fin 4) (v : Word) : (setDin k v s).fsm = s.fsm := rfl
@[simp] theorem setDin_queue (k : Fin 4) (v : Word) : (setDin k v s).queue = s.queue := rfl
@[simp] theorem setDin_latch (k : Fin 4) (v : Word) : (setDin k v s).latch = s.latch := rfl
@[simp] theorem setDin_baseBlock (k : Fin 4) (v : Word) : (setDin k v s).baseBlock = s.baseBlock := rfl
@[simp] theorem setDin_host (k : Fin 4) (v : Word) : (setDin k v s).host = s.host := rfl
@[simp] theorem setDin_readLog (k : Fin 4) (v : Word) : (setDin k v s).readLog = s.readLog := rfl
@[simp] theorem setDin_draw (k : Fin 4) (v : Word) : (setDin k v s).draw = s.draw := rfl

/-! ## setDout -/

@[simp] theorem setDout_key (v : Vector Word 4) : (setDout v s).key = s.key := rfl
@[simp] theorem setDout_din (v : Vector Word 4) : (setDout v s).din = s.din := rfl
@[simp] theorem setDout_dout (v : Vector Word 4) : (setDout v s).dout = v := rfl
@[simp] theorem setDout_mat (v : Vector Word 4) : (setDout v s).mat = s.mat := rfl
@[simp] theorem setDout_w (v : Vector Word 4) : (setDout v s).w = s.w := rfl
@[simp] theorem setDout_sbox (v : Vector Word 4) : (setDout v s).sbox = s.sbox := rfl
@[simp] theorem setDout_invSbox (v : Vector Word 4) : (setDout v s).invSbox = s.invSbox := rfl
@[simp] theorem setDout_status (v : Vector Word 4) : (setDout v s).status = s.status := rfl
@[simp] theorem setDout_result (v : Vector Word 4) : (setDout v s).result = s.result := rfl
@[simp] theorem setDout_fsm (v : Vector Word 4) : (setDout v s).fsm = s.fsm := rfl
@[simp] theorem setDout_queue (v : Vector Word 4) : (setDout v s).queue = s.queue := rfl
@[simp] theorem setDout_latch (v : Vector Word 4) : (setDout v s).latch = s.latch := rfl
@[simp] theorem setDout_baseBlock (v : Vector Word 4) : (setDout v s).baseBlock = s.baseBlock := rfl
@[simp] theorem setDout_host (v : Vector Word 4) : (setDout v s).host = s.host := rfl
@[simp] theorem setDout_readLog (v : Vector Word 4) : (setDout v s).readLog = s.readLog := rfl
@[simp] theorem setDout_draw (v : Vector Word 4) : (setDout v s).draw = s.draw := rfl

/-! ## setMat -/

@[simp] theorem setMat_key (m : Block) : (setMat m s).key = s.key := rfl
@[simp] theorem setMat_din (m : Block) : (setMat m s).din = s.din := rfl
@[simp] theorem setMat_dout (m : Block) : (setMat m s).dout = s.dout := rfl
@[simp] theorem setMat_mat (m : Block) : (setMat m s).mat = m := rfl
@[simp] theorem setMat_w (m : Block) : (setMat m s).w = s.w := rfl
@[simp] theorem setMat_sbox (m : Block) : (setMat m s).sbox = s.sbox := rfl
@[simp] theorem setMat_invSbox (m : Block) : (setMat m s).invSbox = s.invSbox := rfl
@[simp] theorem setMat_status (m : Block) : (setMat m s).status = s.status := rfl
@[simp] theorem setMat_result (m : Block) : (setMat m s).result = s.result := rfl
@[simp] theorem setMat_fsm (m : Block) : (setMat m s).fsm = s.fsm := rfl
@[simp] theorem setMat_queue (m : Block) : (setMat m s).queue = s.queue := rfl
@[simp] theorem setMat_latch (m : Block) : (setMat m s).latch = s.latch := rfl
@[simp] theorem setMat_baseBlock (m : Block) : (setMat m s).baseBlock = s.baseBlock := rfl
@[simp] theorem setMat_host (m : Block) : (setMat m s).host = s.host := rfl
@[simp] theorem setMat_readLog (m : Block) : (setMat m s).readLog = s.readLog := rfl
@[simp] theorem setMat_draw (m : Block) : (setMat m s).draw = s.draw := rfl

/-! ## setW -/

@[simp] theorem setW_key (i : Fin 60) (v : Word) : (setW i v s).key = s.key := rfl
@[simp] theorem setW_din (i : Fin 60) (v : Word) : (setW i v s).din = s.din := rfl
@[simp] theorem setW_dout (i : Fin 60) (v : Word) : (setW i v s).dout = s.dout := rfl
@[simp] theorem setW_mat (i : Fin 60) (v : Word) : (setW i v s).mat = s.mat := rfl
@[simp] theorem setW_w (i : Fin 60) (v : Word) : (setW i v s).w = s.w.set i v := rfl
@[simp] theorem setW_sbox (i : Fin 60) (v : Word) : (setW i v s).sbox = s.sbox := rfl
@[simp] theorem setW_invSbox (i : Fin 60) (v : Word) : (setW i v s).invSbox = s.invSbox := rfl
@[simp] theorem setW_status (i : Fin 60) (v : Word) : (setW i v s).status = s.status := rfl
@[simp] theorem setW_result (i : Fin 60) (v : Word) : (setW i v s).result = s.result := rfl
@[simp] theorem setW_fsm (i : Fin 60) (v : Word) : (setW i v s).fsm = s.fsm := rfl
@[simp] theorem setW_queue (i : Fin 60) (v : Word) : (setW i v s).queue = s.queue := rfl
@[simp] theorem setW_latch (i : Fin 60) (v : Word) : (setW i v s).latch = s.latch := rfl
@[simp] theorem setW_baseBlock (i : Fin 60) (v : Word) : (setW i v s).baseBlock = s.baseBlock := rfl
@[simp] theorem setW_host (i : Fin 60) (v : Word) : (setW i v s).host = s.host := rfl
@[simp] theorem setW_readLog (i : Fin 60) (v : Word) : (setW i v s).readLog = s.readLog := rfl
@[simp] theorem setW_draw (i : Fin 60) (v : Word) : (setW i v s).draw = s.draw := rfl

/-! ## setSbox -/

@[simp] theorem setSbox_key (t : Table) : (setSbox t s).key = s.key := rfl
@[simp] theorem setSbox_din (t : Table) : (setSbox t s).din = s.din := rfl
@[simp] theorem setSbox_dout (t : Table) : (setSbox t s).dout = s.dout := rfl
@[simp] theorem setSbox_mat (t : Table) : (setSbox t s).mat = s.mat := rfl
@[simp] theorem setSbox_w (t : Table) : (setSbox t s).w = s.w := rfl
@[simp] theorem setSbox_sbox (t : Table) : (setSbox t s).sbox = t := rfl
@[simp] theorem setSbox_invSbox (t : Table) : (setSbox t s).invSbox = s.invSbox := rfl
@[simp] theorem setSbox_status (t : Table) : (setSbox t s).status = s.status := rfl
@[simp] theorem setSbox_result (t : Table) : (setSbox t s).result = s.result := rfl
@[simp] theorem setSbox_fsm (t : Table) : (setSbox t s).fsm = s.fsm := rfl
@[simp] theorem setSbox_queue (t : Table) : (setSbox t s).queue = s.queue := rfl
@[simp] theorem setSbox_latch (t : Table) : (setSbox t s).latch = s.latch := rfl
@[simp] theorem setSbox_baseBlock (t : Table) : (setSbox t s).baseBlock = s.baseBlock := rfl
@[simp] theorem setSbox_host (t : Table) : (setSbox t s).host = s.host := rfl
@[simp] theorem setSbox_readLog (t : Table) : (setSbox t s).readLog = s.readLog := rfl
@[simp] theorem setSbox_draw (t : Table) : (setSbox t s).draw = s.draw := rfl

/-! ## setInvSbox -/

@[simp] theorem setInvSbox_key (t : Table) : (setInvSbox t s).key = s.key := rfl
@[simp] theorem setInvSbox_din (t : Table) : (setInvSbox t s).din = s.din := rfl
@[simp] theorem setInvSbox_dout (t : Table) : (setInvSbox t s).dout = s.dout := rfl
@[simp] theorem setInvSbox_mat (t : Table) : (setInvSbox t s).mat = s.mat := rfl
@[simp] theorem setInvSbox_w (t : Table) : (setInvSbox t s).w = s.w := rfl
@[simp] theorem setInvSbox_sbox (t : Table) : (setInvSbox t s).sbox = s.sbox := rfl
@[simp] theorem setInvSbox_invSbox (t : Table) : (setInvSbox t s).invSbox = t := rfl
@[simp] theorem setInvSbox_status (t : Table) : (setInvSbox t s).status = s.status := rfl
@[simp] theorem setInvSbox_result (t : Table) : (setInvSbox t s).result = s.result := rfl
@[simp] theorem setInvSbox_fsm (t : Table) : (setInvSbox t s).fsm = s.fsm := rfl
@[simp] theorem setInvSbox_queue (t : Table) : (setInvSbox t s).queue = s.queue := rfl
@[simp] theorem setInvSbox_latch (t : Table) : (setInvSbox t s).latch = s.latch := rfl
@[simp] theorem setInvSbox_baseBlock (t : Table) : (setInvSbox t s).baseBlock = s.baseBlock := rfl
@[simp] theorem setInvSbox_host (t : Table) : (setInvSbox t s).host = s.host := rfl
@[simp] theorem setInvSbox_readLog (t : Table) : (setInvSbox t s).readLog = s.readLog := rfl
@[simp] theorem setInvSbox_draw (t : Table) : (setInvSbox t s).draw = s.draw := rfl

/-! ## onStatus -/

@[simp] theorem onStatus_key (f : Status → Status) : (onStatus f s).key = s.key := rfl
@[simp] theorem onStatus_din (f : Status → Status) : (onStatus f s).din = s.din := rfl
@[simp] theorem onStatus_dout (f : Status → Status) : (onStatus f s).dout = s.dout := rfl
@[simp] theorem onStatus_mat (f : Status → Status) : (onStatus f s).mat = s.mat := rfl
@[simp] theorem onStatus_w (f : Status → Status) : (onStatus f s).w = s.w := rfl
@[simp] theorem onStatus_sbox (f : Status → Status) : (onStatus f s).sbox = s.sbox := rfl
@[simp] theorem onStatus_invSbox (f : Status → Status) : (onStatus f s).invSbox = s.invSbox := rfl
@[simp] theorem onStatus_status (f : Status → Status) : (onStatus f s).status = f s.status := rfl
@[simp] theorem onStatus_result (f : Status → Status) : (onStatus f s).result = s.result := rfl
@[simp] theorem onStatus_fsm (f : Status → Status) : (onStatus f s).fsm = s.fsm := rfl
@[simp] theorem onStatus_queue (f : Status → Status) : (onStatus f s).queue = s.queue := rfl
@[simp] theorem onStatus_latch (f : Status → Status) : (onStatus f s).latch = s.latch := rfl
@[simp] theorem onStatus_baseBlock (f : Status → Status) : (onStatus f s).baseBlock = s.baseBlock := rfl
@[simp] theorem onStatus_host (f : Status → Status) : (onStatus f s).host = s.host := rfl
@[simp] theorem onStatus_readLog (f : Status → Status) : (onStatus f s).readLog = s.readLog := rfl
@[simp] theorem onStatus_draw (f : Status → Status) : (onStatus f s).draw = s.draw := rfl

/-! ## setResult -/

@[simp] theorem setResult_key (v : Word) : (setResult v s).key = s.key := rfl
@[simp] theorem setResult_din (v : Word) : (setResult v s).din = s.din := rfl
@[simp] theorem setResult_dout (v : Word) : (setResult v s).dout = s.dout := rfl
@[simp] theorem setResult_mat (v : Word) : (setResult v s).mat = s.mat := rfl
@[simp] theorem setResult_w (v : Word) : (setResult v s).w = s.w := rfl
@[simp] theorem setResult_sbox (v : Word) : (setResult v s).sbox = s.sbox := rfl
@[simp] theorem setResult_invSbox (v : Word) : (setResult v s).invSbox = s.invSbox := rfl
@[simp] theorem setResult_status (v : Word) : (setResult v s).status = s.status := rfl
@[simp] theorem setResult_result (v : Word) : (setResult v s).result = v := rfl
@[simp] theorem setResult_fsm (v : Word) : (setResult v s).fsm = s.fsm := rfl
@[simp] theorem setResult_queue (v : Word) : (setResult v s).queue = s.queue := rfl
@[simp] theorem setResult_latch (v : Word) : (setResult v s).latch = s.latch := rfl
@[simp] theorem setResult_baseBlock (v : Word) : (setResult v s).baseBlock = s.baseBlock := rfl
@[simp] theorem setResult_host (v : Word) : (setResult v s).host = s.host := rfl
@[simp] theorem setResult_readLog (v : Word) : (setResult v s).readLog = s.readLog := rfl
@[simp] theorem setResult_draw (v : Word) : (setResult v s).draw = s.draw := rfl

/-! ## setPhase -/

@[simp] theorem setPhase_key (p : Phase) : (setPhase p s).key = s.key := rfl
@[simp] theorem setPhase_din (p : Phase) : (setPhase p s).din = s.din := rfl
@[simp] theorem setPhase_dout (p : Phase) : (setPhase p s).dout = s.dout := rfl
@[simp] theorem setPhase_mat (p : Phase) : (setPhase p s).mat = s.mat := rfl
@[simp] theorem setPhase_w (p : Phase) : (setPhase p s).w = s.w := rfl
@[simp] theorem setPhase_sbox (p : Phase) : (setPhase p s).sbox = s.sbox := rfl
@[simp] theorem setPhase_invSbox (p : Phase) : (setPhase p s).invSbox = s.invSbox := rfl
@[simp] theorem setPhase_status (p : Phase) : (setPhase p s).status = s.status := rfl
@[simp] theorem setPhase_result (p : Phase) : (setPhase p s).result = s.result := rfl
@[simp] theorem setPhase_fsm (p : Phase) : (setPhase p s).fsm = { s.fsm with phase := p } := rfl
@[simp] theorem setPhase_queue (p : Phase) : (setPhase p s).queue = s.queue := rfl
@[simp] theorem setPhase_latch (p : Phase) : (setPhase p s).latch = s.latch := rfl
@[simp] theorem setPhase_baseBlock (p : Phase) : (setPhase p s).baseBlock = s.baseBlock := rfl
@[simp] theorem setPhase_host (p : Phase) : (setPhase p s).host = s.host := rfl
@[simp] theorem setPhase_readLog (p : Phase) : (setPhase p s).readLog = s.readLog := rfl
@[simp] theorem setPhase_draw (p : Phase) : (setPhase p s).draw = s.draw := rfl

/-! ## setRound -/

@[simp] theorem setRound_key (r : BitVec 4) : (setRound r s).key = s.key := rfl
@[simp] theorem setRound_din (r : BitVec 4) : (setRound r s).din = s.din := rfl
@[simp] theorem setRound_dout (r : BitVec 4) : (setRound r s).dout = s.dout := rfl
@[simp] theorem setRound_mat (r : BitVec 4) : (setRound r s).mat = s.mat := rfl
@[simp] theorem setRound_w (r : BitVec 4) : (setRound r s).w = s.w := rfl
@[simp] theorem setRound_sbox (r : BitVec 4) : (setRound r s).sbox = s.sbox := rfl
@[simp] theorem setRound_invSbox (r : BitVec 4) : (setRound r s).invSbox = s.invSbox := rfl
@[simp] theorem setRound_status (r : BitVec 4) : (setRound r s).status = s.status := rfl
@[simp] theorem setRound_result (r : BitVec 4) : (setRound r s).result = s.result := rfl
@[simp] theorem setRound_fsm (r : BitVec 4) : (setRound r s).fsm = { s.fsm with round := r } := rfl
@[simp] theorem setRound_queue (r : BitVec 4) : (setRound r s).queue = s.queue := rfl
@[simp] theorem setRound_latch (r : BitVec 4) : (setRound r s).latch = s.latch := rfl
@[simp] theorem setRound_baseBlock (r : BitVec 4) : (setRound r s).baseBlock = s.baseBlock := rfl
@[simp] theorem setRound_host (r : BitVec 4) : (setRound r s).host = s.host := rfl
@[simp] theorem setRound_readLog (r : BitVec 4) : (setRound r s).readLog = s.readLog := rfl
@[simp] theorem setRound_draw (r : BitVec 4) : (setRound r s).draw = s.draw := rfl

/-! ## setKidx -/

@[simp] theorem setKidx_key (i : BitVec 6) : (setKidx i s).key = s.key := rfl
@[simp] theorem setKidx_din (i : BitVec 6) : (setKidx i s).din = s.din := rfl
@[simp] theorem setKidx_dout (i : BitVec 6) : (setKidx i s).dout = s.dout := rfl
@[simp] theorem setKidx_mat (i : BitVec 6) : (setKidx i s).mat = s.mat := rfl
@[simp] theorem setKidx_w (i : BitVec 6) : (setKidx i s).w = s.w := rfl
@[simp] theorem setKidx_sbox (i : BitVec 6) : (setKidx i s).sbox = s.sbox := rfl
@[simp] theorem setKidx_invSbox (i : BitVec 6) : (setKidx i s).invSbox = s.invSbox := rfl
@[simp] theorem setKidx_status (i : BitVec 6) : (setKidx i s).status = s.status := rfl
@[simp] theorem setKidx_result (i : BitVec 6) : (setKidx i s).result = s.result := rfl
@[simp] theorem setKidx_fsm (i : BitVec 6) : (setKidx i s).fsm = { s.fsm with kidx := i } := rfl
@[simp] theorem setKidx_queue (i : BitVec 6) : (setKidx i s).queue = s.queue := rfl
@[simp] theorem setKidx_latch (i : BitVec 6) : (setKidx i s).latch = s.latch := rfl
@[simp] theorem setKidx_baseBlock (i : BitVec 6) : (setKidx i s).baseBlock = s.baseBlock := rfl
@[simp] theorem setKidx_host (i : BitVec 6) : (setKidx i s).host = s.host := rfl
@[simp] theorem setKidx_readLog (i : BitVec 6) : (setKidx i s).readLog = s.readLog := rfl
@[simp] theorem setKidx_draw (i : BitVec 6) : (setKidx i s).draw = s.draw := rfl

/-! ## setFsmOp -/

@[simp] theorem setFsmOp_key (o : BitVec 5) : (setFsmOp o s).key = s.key := rfl
@[simp] theorem setFsmOp_din (o : BitVec 5) : (setFsmOp o s).din = s.din := rfl
@[simp] theorem setFsmOp_dout (o : BitVec 5) : (setFsmOp o s).dout = s.dout := rfl
@[simp] theorem setFsmOp_mat (o : BitVec 5) : (setFsmOp o s).mat = s.mat := rfl
@[simp] theorem setFsmOp_w (o : BitVec 5) : (setFsmOp o s).w = s.w := rfl
@[simp] theorem setFsmOp_sbox (o : BitVec 5) : (setFsmOp o s).sbox = s.sbox := rfl
@[simp] theorem setFsmOp_invSbox (o : BitVec 5) : (setFsmOp o s).invSbox = s.invSbox := rfl
@[simp] theorem setFsmOp_status (o : BitVec 5) : (setFsmOp o s).status = s.status := rfl
@[simp] theorem setFsmOp_result (o : BitVec 5) : (setFsmOp o s).result = s.result := rfl
@[simp] theorem setFsmOp_fsm (o : BitVec 5) : (setFsmOp o s).fsm = { s.fsm with op := o } := rfl
@[simp] theorem setFsmOp_queue (o : BitVec 5) : (setFsmOp o s).queue = s.queue := rfl
@[simp] theorem setFsmOp_latch (o : BitVec 5) : (setFsmOp o s).latch = s.latch := rfl
@[simp] theorem setFsmOp_baseBlock (o : BitVec 5) : (setFsmOp o s).baseBlock = s.baseBlock := rfl
@[simp] theorem setFsmOp_host (o : BitVec 5) : (setFsmOp o s).host = s.host := rfl
@[simp] theorem setFsmOp_readLog (o : BitVec 5) : (setFsmOp o s).readLog = s.readLog := rfl
@[simp] theorem setFsmOp_draw (o : BitVec 5) : (setFsmOp o s).draw = s.draw := rfl

/-! ## setQueue -/

@[simp] theorem setQueue_key (q : List MicroStep) : (setQueue q s).key = s.key := rfl
@[simp] theorem setQueue_din (q : List MicroStep) : (setQueue q s).din = s.din := rfl
@[simp] theorem setQueue_dout (q : List MicroStep) : (setQueue q s).dout = s.dout := rfl
@[simp] theorem setQueue_mat (q : List MicroStep) : (setQueue q s).mat = s.mat := rfl
@[simp] theorem setQueue_w (q : List MicroStep) : (setQueue q s).w = s.w := rfl
@[simp] theorem setQueue_sbox (q : List MicroStep) : (setQueue q s).sbox = s.sbox := rfl
@[simp] theorem setQueue_invSbox (q : List MicroStep) : (setQueue q s).invSbox = s.invSbox := rfl
@[simp] theorem setQueue_status (q : List MicroStep) : (setQueue q s).status = s.status := rfl
@[simp] theorem setQueue_result (q : List MicroStep) : (setQueue q s).result = s.result := rfl
@[simp] theorem setQueue_fsm (q : List MicroStep) : (setQueue q s).fsm = s.fsm := rfl
@[simp] theorem setQueue_queue (q : List MicroStep) : (setQueue q s).queue = q := rfl
@[simp] theorem setQueue_latch (q : List MicroStep) : (setQueue q s).latch = s.latch := rfl
@[simp] theorem setQueue_baseBlock (q : List MicroStep) : (setQueue q s).baseBlock = s.baseBlock := rfl
@[simp] theorem setQueue_host (q : List MicroStep) : (setQueue q s).host = s.host := rfl
@[simp] theorem setQueue_readLog (q : List MicroStep) : (setQueue q s).readLog = s.readLog := rfl
@[simp] theorem setQueue_draw (q : List MicroStep) : (setQueue q s).draw = s.draw := rfl

/-! ## setLatch -/

@[simp] theorem setLatch_key (f : CmdFields) : (setLatch f s).key = s.key := rfl
@[simp] theorem setLatch_din (f : CmdFields) : (setLatch f s).din = s.din := rfl
@[simp] theorem setLatch_dout (f : CmdFields) : (setLatch f s).dout = s.dout := rfl
@[simp] theorem setLatch_mat (f : CmdFields) : (setLatch f s).mat = s.mat := rfl
@[simp] theorem setLatch_w (f : CmdFields) : (setLatch f s).w = s.w := rfl
@[simp] theorem setLatch_sbox (f : CmdFields) : (setLatch f s).sbox = s.sbox := rfl
@[simp] theorem setLatch_invSbox (f : CmdFields) : (setLatch f s).invSbox = s.invSbox := rfl
@[simp] theorem setLatch_status (f : CmdFields) : (setLatch f s).status = s.status := rfl
@[simp] theorem setLatch_result (f : CmdFields) : (setLatch f s).result = s.result := rfl
@[simp] theorem setLatch_fsm (f : CmdFields) : (setLatch f s).fsm = s.fsm := rfl
@[simp] theorem setLatch_queue (f : CmdFields) : (setLatch f s).queue = s.queue := rfl
@[simp] theorem setLatch_latch (f : CmdFields) : (setLatch f s).latch = f := rfl
@[simp] theorem setLatch_baseBlock (f : CmdFields) : (setLatch f s).baseBlock = s.baseBlock := rfl
@[simp] theorem setLatch_host (f : CmdFields) : (setLatch f s).host = s.host := rfl
@[simp] theorem setLatch_readLog (f : CmdFields) : (setLatch f s).readLog = s.readLog := rfl
@[simp] theorem setLatch_draw (f : CmdFields) : (setLatch f s).draw = s.draw := rfl

/-! ## setHost -/

@[simp] theorem setHost_key (h : List HostEvent) : (setHost h s).key = s.key := rfl
@[simp] theorem setHost_din (h : List HostEvent) : (setHost h s).din = s.din := rfl
@[simp] theorem setHost_dout (h : List HostEvent) : (setHost h s).dout = s.dout := rfl
@[simp] theorem setHost_mat (h : List HostEvent) : (setHost h s).mat = s.mat := rfl
@[simp] theorem setHost_w (h : List HostEvent) : (setHost h s).w = s.w := rfl
@[simp] theorem setHost_sbox (h : List HostEvent) : (setHost h s).sbox = s.sbox := rfl
@[simp] theorem setHost_invSbox (h : List HostEvent) : (setHost h s).invSbox = s.invSbox := rfl
@[simp] theorem setHost_status (h : List HostEvent) : (setHost h s).status = s.status := rfl
@[simp] theorem setHost_result (h : List HostEvent) : (setHost h s).result = s.result := rfl
@[simp] theorem setHost_fsm (h : List HostEvent) : (setHost h s).fsm = s.fsm := rfl
@[simp] theorem setHost_queue (h : List HostEvent) : (setHost h s).queue = s.queue := rfl
@[simp] theorem setHost_latch (h : List HostEvent) : (setHost h s).latch = s.latch := rfl
@[simp] theorem setHost_baseBlock (h : List HostEvent) : (setHost h s).baseBlock = s.baseBlock := rfl
@[simp] theorem setHost_host (h : List HostEvent) : (setHost h s).host = h := rfl
@[simp] theorem setHost_readLog (h : List HostEvent) : (setHost h s).readLog = s.readLog := rfl
@[simp] theorem setHost_draw (h : List HostEvent) : (setHost h s).draw = s.draw := rfl

/-! ## logRead -/

@[simp] theorem logRead_key (a : Nat) (v : Word) : (logRead a v s).key = s.key := rfl
@[simp] theorem logRead_din (a : Nat) (v : Word) : (logRead a v s).din = s.din := rfl
@[simp] theorem logRead_dout (a : Nat) (v : Word) : (logRead a v s).dout = s.dout := rfl
@[simp] theorem logRead_mat (a : Nat) (v : Word) : (logRead a v s).mat = s.mat := rfl
@[simp] theorem logRead_w (a : Nat) (v : Word) : (logRead a v s).w = s.w := rfl
@[simp] theorem logRead_sbox (a : Nat) (v : Word) : (logRead a v s).sbox = s.sbox := rfl
@[simp] theorem logRead_invSbox (a : Nat) (v : Word) : (logRead a v s).invSbox = s.invSbox := rfl
@[simp] theorem logRead_status (a : Nat) (v : Word) : (logRead a v s).status = s.status := rfl
@[simp] theorem logRead_result (a : Nat) (v : Word) : (logRead a v s).result = s.result := rfl
@[simp] theorem logRead_fsm (a : Nat) (v : Word) : (logRead a v s).fsm = s.fsm := rfl
@[simp] theorem logRead_queue (a : Nat) (v : Word) : (logRead a v s).queue = s.queue := rfl
@[simp] theorem logRead_latch (a : Nat) (v : Word) : (logRead a v s).latch = s.latch := rfl
@[simp] theorem logRead_baseBlock (a : Nat) (v : Word) : (logRead a v s).baseBlock = s.baseBlock := rfl
@[simp] theorem logRead_host (a : Nat) (v : Word) : (logRead a v s).host = s.host := rfl
@[simp] theorem logRead_readLog (a : Nat) (v : Word) : (logRead a v s).readLog = (a, v) :: s.readLog := rfl
@[simp] theorem logRead_draw (a : Nat) (v : Word) : (logRead a v s).draw = s.draw := rfl

/-! ## nextDraw -/

@[simp] theorem nextDraw_key : (nextDraw s).key = s.key := rfl
@[simp] theorem nextDraw_din : (nextDraw s).din = s.din := rfl
@[simp] theorem nextDraw_dout : (nextDraw s).dout = s.dout := rfl
@[simp] theorem nextDraw_mat : (nextDraw s).mat = s.mat := rfl
@[simp] theorem nextDraw_w : (nextDraw s).w = s.w := rfl
@[simp] theorem nextDraw_sbox : (nextDraw s).sbox = s.sbox := rfl
@[simp] theorem nextDraw_invSbox : (nextDraw s).invSbox = s.invSbox := rfl
@[simp] theorem nextDraw_status : (nextDraw s).status = s.status := rfl
@[simp] theorem nextDraw_result : (nextDraw s).result = s.result := rfl
@[simp] theorem nextDraw_fsm : (nextDraw s).fsm = s.fsm := rfl
@[simp] theorem nextDraw_queue : (nextDraw s).queue = s.queue := rfl
@[simp] theorem nextDraw_latch : (nextDraw s).latch = s.latch := rfl
@[simp] theorem nextDraw_baseBlock : (nextDraw s).baseBlock = s.baseBlock := rfl
@[simp] theorem nextDraw_host : (nextDraw s).host = s.host := rfl
@[simp] theorem nextDraw_readLog : (nextDraw s).readLog = s.readLog := rfl
@[simp] theorem nextDraw_draw : (nextDraw s).draw = s.draw + 1 := rfl

end Sys2Proof.Machine
end

