-- ==== Sys2Proof/Laws/Ops.lean ====
section
/-! SUPPORT. What the shared operations can do, said once each: presenting a command, accepting it, a step of the
engine, whose turn it is, and a step of the machine. -/

namespace Sys2Proof.Machine

/-! ## Presenting a command -/

/-- All that presenting a command can do. -/
theorem presentCommand_cases {f : CmdFields} {check : Option ErrorCode} {body : List MicroStep} {s t : State}
    (h : presentCommand f check body s = .next t) :
    (s.status.busy = true ∧ t = dropWrite s) ∨
    (s.status.busy = false ∧ ∃ e, check = some e ∧ t = cmdError e f.op s) ∨
    (s.status.busy = false ∧ check = none ∧ t = accept f body s) := by
  unfold presentCommand at h
  split at h
  · next hb => exact .inl ⟨hb, by cases h; rfl⟩
  · next hb =>
    have hb' : s.status.busy = false := by simpa using hb
    cases check with
    | some e => exact .inr (.inl ⟨hb', e, rfl, by cases h; rfl⟩)
    | none => exact .inr (.inr ⟨hb', rfl, by cases h; rfl⟩)

/-- Presenting a command always answers a next state. -/
theorem presentCommand_total (f : CmdFields) (check : Option ErrorCode) (body : List MicroStep) (s : State) :
    ∃ t, presentCommand f check body s = .next t := by
  unfold presentCommand
  split
  · exact ⟨_, rfl⟩
  · cases check <;> exact ⟨_, rfl⟩

@[simp] theorem presentCommand_busy {f : CmdFields} {check : Option ErrorCode} {body : List MicroStep} {s : State}
    (h : s.status.busy = true) : presentCommand f check body s = .next (dropWrite s) := by
  simp [presentCommand, h]

theorem presentCommand_accepted {f : CmdFields} {body : List MicroStep} {s : State} (h : s.status.busy = false) :
    presentCommand f none body s = .next (accept f body s) := by
  simp [presentCommand, h]

theorem presentCommand_rejected {f : CmdFields} {e : ErrorCode} {body : List MicroStep} {s : State}
    (h : s.status.busy = false) : presentCommand f (some e) body s = .next (cmdError e f.op s) := by
  simp [presentCommand, h]

/-- Every command is presented with its own fields; the check and the body are the command's. -/
theorem exec_presents (i : Instr) (s : State) :
    ∃ check body, exec i s = presentCommand i.fields check body s := by
  cases i with
  | addRoundKey rnd =>
    simp only [exec, execAddRoundKey]
    split
    · exact ⟨_, _, rfl⟩
    · exact ⟨_, _, rfl⟩
  | _ =>
    simp only [exec, execNop, execExpandKey, execEncryptBlock, execDecryptBlock, execGenTables, execSboxLookup,
      execInvSboxLookup, execGfMul, execLoadState, execUnloadState, execSubBytes, execInvSubBytes, execShiftRows,
      execInvShiftRows, execMixColumns, execInvMixColumns]
    exact ⟨_, _, rfl⟩

/-- Clearing KEY_VALID for EXPAND_KEY, as one record. -/
theorem clearKeyValid_eq (op : BitVec 5) (s : State) :
    clearKeyValid op s =
      { s with status := { s.status with keyValid := s.status.keyValid && op != opExpandKey } } := by
  unfold clearKeyValid
  split
  · next h => simp [onStatus, statusKeyValid, h]
  · next h =>
    have : (op != opExpandKey) = true := by simpa using h
    simp [this]

/-- The table generation a command needs depends on the two table flags only. -/
theorem genPrefix_congr {op : BitVec 5} {t t' : Status} (h1 : t.sboxValid = t'.sboxValid)
    (h2 : t.invValid = t'.invValid) : genPrefix op t = genPrefix op t' := by
  simp only [genPrefix, h1, h2]

/-- All that accepting a command does. -/
theorem accept_eq (f : CmdFields) (body : List MicroStep) (s : State) :
    accept f body s =
      match genPrefix f.op s.status ++ body with
      | [] =>
        { s with
          status := { s.status with
            busy := false, done := true, err := .none, keyValid := s.status.keyValid && f.op != opExpandKey }
          fsm := { s.fsm with op := f.op, phase := .idle }
          latch := f
          queue := [] }
      | m :: q =>
        { s with
          status := { s.status with
            busy := true, done := false, err := .none, keyValid := s.status.keyValid && f.op != opExpandKey }
          fsm := { s.fsm with op := f.op }
          latch := f
          queue := m :: q } := by
  have e : genPrefix f.op (clearKeyValid f.op (onStatus statusAccepted (setLatch f (setFsmOp f.op s)))).status =
      genPrefix f.op s.status := by
    apply genPrefix_congr <;> rw [clearKeyValid_eq] <;> rfl
  unfold accept
  simp only [e]
  cases genPrefix f.op s.status ++ body with
  | nil =>
    simp only [clearKeyValid_eq, complete, onStatus, setPhase, setQueue, setLatch, setFsmOp, statusCompleted,
      statusAccepted]
  | cons m q => simp only [clearKeyValid_eq, onStatus, setQueue, setLatch, setFsmOp, statusStarted, statusAccepted]

/-- The queue of an accepted command. -/
theorem accept_queue (f : CmdFields) (body : List MicroStep) (s : State) :
    (accept f body s).queue = genPrefix f.op s.status ++ body := by
  rw [accept_eq]
  cases genPrefix f.op s.status ++ body <;> rfl

/-- An accepted command with micro-steps to perform. -/
theorem accept_starts {f : CmdFields} {body : List MicroStep} {s : State}
    (h : genPrefix f.op s.status ++ body ≠ []) :
    accept f body s =
      { s with
        status := { s.status with
          busy := true, done := false, err := .none, keyValid := s.status.keyValid && f.op != opExpandKey }
        fsm := { s.fsm with op := f.op }
        latch := f
        queue := genPrefix f.op s.status ++ body } := by
  rw [accept_eq]
  cases hc : genPrefix f.op s.status ++ body with
  | nil => exact absurd hc h
  | cons m q => rfl

/-- An accepted command with nothing to perform is complete. -/
theorem accept_completes {f : CmdFields} {body : List MicroStep} {s : State}
    (h : genPrefix f.op s.status ++ body = []) :
    accept f body s =
      { s with
        status := { s.status with
          busy := false, done := true, err := .none, keyValid := s.status.keyValid && f.op != opExpandKey }
        fsm := { s.fsm with op := f.op, phase := .idle }
        latch := f
        queue := [] } := by
  rw [accept_eq, h]

/-! ## The engine -/

@[simp] theorem engineStep_idle {s : State} (h : s.queue = []) : engineStep s = s := by
  simp [engineStep, h]

/-- The defensive stop. -/
theorem engineStep_stops {s : State} {m : MicroStep} {rest : List MicroStep} (h : s.queue = m :: rest)
    (hr : readsInverse m.op s = true) (hv : s.status.invValid = false) : engineStep s = defensiveStop s := by
  simp [engineStep, h, hr, hv]

/-- Every other step of the engine. -/
theorem engineStep_performs {s : State} {m : MicroStep} {rest : List MicroStep} (h : s.queue = m :: rest)
    (hr : readsInverse m.op s = false ∨ s.status.invValid = true) :
    engineStep s = finishStep rest (perform m.op (showStep m s)) := by
  have : (readsInverse m.op s && !s.status.invValid) = false := by
    cases hr with
    | inl h => simp [h]
    | inr h => simp [h]
  simp [engineStep, h, this]

@[simp] theorem engineRun_zero (s : State) : engineRun 0 s = s := rfl

theorem engineRun_succ (n : Nat) (s : State) : engineRun (n + 1) s = engineRun n (engineStep s) := rfl

theorem engineRun_add (m n : Nat) (s : State) : engineRun (m + n) s = engineRun n (engineRun m s) := by
  induction m generalizing s with
  | zero => simp
  | succ m ih => rw [Nat.succ_add, engineRun_succ, engineRun_succ, ih]

/-- With nothing queued there is nothing to drain. -/
@[simp] theorem drain_idle {s : State} (h : s.queue = []) : drain s = s := by
  simp [drain, h]

/-- Draining a queue performs its head, then drains the rest. -/
theorem drain_step {s : State} {m : MicroStep} {rest : List MicroStep} (h : s.queue = m :: rest)
    (hr : (engineStep s).queue = rest) : drain s = drain (engineStep s) := by
  simp only [drain, h, hr, List.length_cons, engineRun_succ]

/-! ## Turns and steps -/

/-- All that a turn can be. -/
theorem nextTurn_cases (s : State) :
    (s.host = [] ∧ s.queue = [] ∧ nextTurn s = .idle) ∨
    (s.host = [] ∧ s.queue ≠ [] ∧ nextTurn s = .engine s) ∨
    (∃ d op rest, s.host = ⟨d + 1, op⟩ :: rest ∧ s.queue ≠ [] ∧
      nextTurn s = .engine (setHost (⟨d, op⟩ :: rest) s)) ∨
    (∃ d op rest, s.host = ⟨d, op⟩ :: rest ∧ (d = 0 ∨ s.queue = []) ∧ nextTurn s = .host op (setHost rest s)) := by
  unfold nextTurn
  rcases hh : s.host with _ | ⟨⟨d, op⟩, rest⟩ <;> rcases hq : s.queue with _ | ⟨m, q⟩
  · simp
  · simp
  · exact .inr (.inr (.inr ⟨d, op, rest, rfl, .inr rfl, rfl⟩))
  · cases d with
    | zero => exact .inr (.inr (.inr ⟨0, op, rest, rfl, .inl rfl, rfl⟩))
    | succ d => exact .inr (.inr (.inl ⟨d, op, rest, rfl, by simp, rfl⟩))

/-- All that a step can be: nothing, a micro-step of the engine, or an operation of the host, which presents a command
word or not. -/
theorem step_cases (s : State) :
    (s.host = [] ∧ s.queue = [] ∧ step s = .next s) ∨
    (s.host = [] ∧ s.queue ≠ [] ∧ step s = .next (engineStep s)) ∨
    (∃ d op rest, s.host = ⟨d + 1, op⟩ :: rest ∧ s.queue ≠ [] ∧
      step s = .next (engineStep (setHost (⟨d, op⟩ :: rest) s))) ∨
    (∃ d op rest, s.host = ⟨d, op⟩ :: rest ∧ (d = 0 ∨ s.queue = []) ∧
      ((commandWord op (setHost rest s) = none ∧ step s = hostTurn op (setHost rest s)) ∨
       (∃ w i, commandWord op (setHost rest s) = some w ∧ decode w = .ok i ∧ step s = exec i (setHost rest s)) ∨
       (∃ w e, commandWord op (setHost rest s) = some w ∧ decode w = .error e ∧
         step s = .next (presentIllegal w (setHost rest s))))) := by
  rcases nextTurn_cases s with ⟨hh, hq, ht⟩ | ⟨hh, hq, ht⟩ | ⟨d, op, rest, hh, hq, ht⟩ | ⟨d, op, rest, hh, hd, ht⟩
  · exact .inl ⟨hh, hq, by simp [step, ht]⟩
  · exact .inr (.inl ⟨hh, hq, by simp [step, ht]⟩)
  · exact .inr (.inr (.inl ⟨d, op, rest, hh, hq, by simp [step, ht]⟩))
  · refine .inr (.inr (.inr ⟨d, op, rest, hh, hd, ?_⟩))
    cases hc : commandWord op (setHost rest s) with
    | none => exact .inl ⟨rfl, by simp [step, ht, hc]⟩
    | some w =>
      cases hw : decode w with
      | ok i => exact .inr (.inl ⟨w, i, rfl, hw, by simp [step, ht, hc, hw]⟩)
      | error e => exact .inr (.inr ⟨w, e, rfl, hw, by simp [step, ht, hc, hw]⟩)

/-! ## Runs of the machine -/

theorem run_zero (s : State) : Host.Core.run Sys2Proof.core 0 s = .next s := rfl

theorem run_succ {n : Nat} {s t : State} (h : step s = .next t) :
    Host.Core.run Sys2Proof.core (n + 1) s = Host.Core.run Sys2Proof.core n t := by
  have h' : Sys2Proof.core.step s = .next t := h
  simp only [Host.Core.run, h']

end Sys2Proof.Machine
end

