-- ==== Sys2Proof/Laws/Engine.lean ====
section
/-! SUPPORT. What the parts of a micro-step leave unchanged, said once each; later proofs cite these and do not unfold
the micro-steps. -/

namespace Sys2Proof.Machine

/-- KEXP(i) writes W, FSM.KIDX and KEY_VALID only. -/
@[simp] theorem stepKexp_frame (i : Fin 60) (s : State) :
    (stepKexp i s).key = s.key ∧ (stepKexp i s).din = s.din ∧ (stepKexp i s).dout = s.dout ∧
    (stepKexp i s).mat = s.mat ∧ (stepKexp i s).sbox = s.sbox ∧ (stepKexp i s).invSbox = s.invSbox ∧
    (stepKexp i s).result = s.result ∧ (stepKexp i s).queue = s.queue ∧ (stepKexp i s).latch = s.latch ∧
    (stepKexp i s).baseBlock = s.baseBlock ∧ (stepKexp i s).host = s.host ∧ (stepKexp i s).readLog = s.readLog ∧
    (stepKexp i s).draw = s.draw ∧ (stepKexp i s).fsm = { s.fsm with kidx := BitVec.ofNat 6 i.val } ∧
    (stepKexp i s).w = s.w.set i (scheduleWord s.sbox s.key s.w i) ∧
    (stepKexp i s).status = { s.status with keyValid := s.status.keyValid || i.val == 59 } := by
  unfold stepKexp
  split
  · next h => simp [h, statusKeyValid]
  · next h =>
    have h59 : (i.val == 59) = false := by simp [h]
    simp [h59]

/-- PRIM writes RESULT only. -/
theorem stepPrim_result (s : State) : ∃ v, stepPrim s = setResult v s := by
  unfold stepPrim primNop primSboxLookup primInvSboxLookup primGfMul
  repeat' split
  all_goals exact ⟨_, rfl⟩

@[simp] theorem stepPrim_frame (s : State) :
    (stepPrim s).key = s.key ∧ (stepPrim s).din = s.din ∧ (stepPrim s).dout = s.dout ∧ (stepPrim s).mat = s.mat ∧
    (stepPrim s).w = s.w ∧ (stepPrim s).sbox = s.sbox ∧ (stepPrim s).invSbox = s.invSbox ∧
    (stepPrim s).status = s.status ∧ (stepPrim s).fsm = s.fsm ∧ (stepPrim s).queue = s.queue ∧
    (stepPrim s).latch = s.latch ∧ (stepPrim s).baseBlock = s.baseBlock ∧ (stepPrim s).host = s.host ∧
    (stepPrim s).readLog = s.readLog ∧ (stepPrim s).draw = s.draw := by
  obtain ⟨v, h⟩ := stepPrim_result s
  simp [h]

/-- Showing a micro-step writes FSM.PHASE and, if the micro-step carries a round, FSM.ROUND. -/
theorem showStep_fsm (m : MicroStep) (s : State) :
    showStep m s = { s with fsm := { s.fsm with phase := phaseOf m.op, round := m.round.getD s.fsm.round } } := by
  unfold showStep
  cases m.round <;> rfl

/-- No micro-step touches what belongs to the command as a whole or to the host. -/
theorem perform_frame (m : MicroOp) (s : State) :
    (perform m s).key = s.key ∧ (perform m s).din = s.din ∧ (perform m s).latch = s.latch ∧
    (perform m s).queue = s.queue ∧ (perform m s).baseBlock = s.baseBlock ∧ (perform m s).host = s.host ∧
    (perform m s).readLog = s.readLog ∧ (perform m s).draw = s.draw ∧
    (perform m s).status.busy = s.status.busy ∧ (perform m s).status.done = s.status.done ∧
    (perform m s).status.err = s.status.err ∧ (perform m s).status.errSticky = s.status.errSticky ∧
    (perform m s).status.ovr = s.status.ovr ∧ (perform m s).fsm.op = s.fsm.op ∧
    (perform m s).fsm.phase = s.fsm.phase ∧ (perform m s).fsm.round = s.fsm.round := by
  cases m <;>
    simp [perform, stepGenFwd, stepGenInv, stepLoad, stepArk, stepSb, stepSr, stepMc, stepIsb, stepIsr, stepImc,
      stepUnload, statusSboxValid, statusInvValid]

end Sys2Proof.Machine
end

