-- ==== Sys2Proof/Laws/Operands.lean ====
section
/-! SUPPORT. The lemmas of the operand forms: cells of the state matrix, entries of a table. -/

namespace Sys2Proof.Machine

@[simp] theorem cell_blockOf (f : Fin 4 → Fin 4 → Byte) (r c : Fin 4) : cell (blockOf f) r c = f r c := by
  simp [cell, blockOf]

/-- Two matrices with the same cells are the same matrix. -/
theorem block_ext {m m' : Block} (h : ∀ r c, cell m r c = cell m' r c) : m = m' := by
  apply Vector.ext
  intro r hr
  apply Vector.ext
  intro c hc
  exact h ⟨r, hr⟩ ⟨c, hc⟩

@[simp] theorem blockOf_cell (m : Block) : blockOf (fun r c => cell m r c) = m := block_ext (by simp)

/-- Two tables with the same entries are the same table. -/
theorem table_ext {t t' : Table} (h : ∀ x, look t x = look t' x) : t = t' := by
  apply Vector.ext
  intro x hx
  have := h (BitVec.ofNat 8 x)
  simpa [look, Nat.mod_eq_of_lt hx] using this

/-- An entry after a write. -/
theorem look_put (t : Table) (x v y : Byte) : look (put t x v) y = if x = y then v else look t y := by
  simp only [look, put, Vector.getElem_set]
  congr 1
  exact propext BitVec.toNat_inj

@[simp] theorem look_put_self (t : Table) (x v : Byte) : look (put t x v) x = v := by simp [look_put]

theorem look_put_other (t : Table) {x y : Byte} (v : Byte) (h : x ≠ y) : look (put t x v) y = look t y := by
  simp [look_put, h]

end Sys2Proof.Machine
end

