-- ==== Sys2Proof/Laws/PerInstr.lean ====
section
/-! SUPPORT. The family OpcodeRow: every word the encoder makes matches its row of the opcode table, under the row's
mask. The masks and the match values are those of spec/opcode_table.json. -/

namespace Sys2Proof.Laws.OpcodeRow

/-- The bits the row fixes. -/
def rowMask : Instr → Word
  | .nop => 0xFFFFFFFF
  | .expandKey => 0xFFFFFFFF
  | .encryptBlock => 0xFFFFFFFF
  | .decryptBlock => 0xFFFFFFFF
  | .genTables => 0xFFFFFFFF
  | .sboxLookup _ => 0xFF00FFFF
  | .invSboxLookup _ => 0xFF00FFFF
  | .gfMul _ _ => 0x0000FFFF
  | .loadState => 0xFFFFFFFF
  | .unloadState => 0xFFFFFFFF
  | .subBytes => 0xFFFFFFFF
  | .invSubBytes => 0xFFFFFFFF
  | .shiftRows => 0xFFFFFFFF
  | .invShiftRows => 0xFFFFFFFF
  | .mixColumns => 0xFFFFFFFF
  | .invMixColumns => 0xFFFFFFFF
  | .addRoundKey _ => 0xFFFFF0FF

/-- The value of those bits. -/
def rowMatch : Instr → Word
  | .nop => 0x00000000
  | .expandKey => 0x00000001
  | .encryptBlock => 0x00000002
  | .decryptBlock => 0x00000003
  | .genTables => 0x00000004
  | .sboxLookup _ => 0x00000005
  | .invSboxLookup _ => 0x00000006
  | .gfMul _ _ => 0x00000007
  | .loadState => 0x00000008
  | .unloadState => 0x00000009
  | .subBytes => 0x0000000A
  | .invSubBytes => 0x0000000B
  | .shiftRows => 0x0000000C
  | .invShiftRows => 0x0000000D
  | .mixColumns => 0x0000000E
  | .invMixColumns => 0x0000000F
  | .addRoundKey _ => 0x00000010

/-- The command's word matches its row. -/
def Statement (i : Instr) : Prop := encode i &&& rowMask i = rowMatch i

theorem nop : Statement .nop := by unfold Statement; decide
theorem expandKey : Statement .expandKey := by unfold Statement; decide
theorem encryptBlock : Statement .encryptBlock := by unfold Statement; decide
theorem decryptBlock : Statement .decryptBlock := by unfold Statement; decide
theorem genTables : Statement .genTables := by unfold Statement; decide
theorem sboxLookup (x : Byte) : Statement (.sboxLookup x) := by unfold Statement; revert x; decide
theorem invSboxLookup (x : Byte) : Statement (.invSboxLookup x) := by unfold Statement; revert x; decide
theorem loadState : Statement .loadState := by unfold Statement; decide
theorem unloadState : Statement .unloadState := by unfold Statement; decide
theorem subBytes : Statement .subBytes := by unfold Statement; decide
theorem invSubBytes : Statement .invSubBytes := by unfold Statement; decide
theorem shiftRows : Statement .shiftRows := by unfold Statement; decide
theorem invShiftRows : Statement .invShiftRows := by unfold Statement; decide
theorem mixColumns : Statement .mixColumns := by unfold Statement; decide
theorem invMixColumns : Statement .invMixColumns := by unfold Statement; decide
theorem addRoundKey (rnd : BitVec 4) : Statement (.addRoundKey rnd) := by unfold Statement; revert rnd; decide

/-- Only the low half of the word is fixed: the operands are bits 31:16. -/
theorem gfMul (x c : Byte) : Statement (.gfMul x c) := by
  unfold Statement
  apply BitVec.eq_of_getLsbD_eq
  intro i hi
  simp only [encode, rowMask, rowMatch, Instr.fields, opGfMul, BitVec.getLsbD_and, assemble_bit,
    BitVec.getLsbD_append]
  interval_cases i <;> simp

end Sys2Proof.Laws.OpcodeRow
end

