-- ==== Sys2Proof/Laws/Tables.lean ====
section
/-! SUPPORT. The loop of GenInv: what it writes, and that the table it starts from does not show when every entry is
written. -/

namespace Sys2Proof.Machine

/-- A loop that puts x at the place t[x] for each x of a list without repeats: with t one to one, the place of each x
of the list holds x at the end. -/
theorem look_foldl_put_mem {t : Table} (inj : ∀ x y, look t x = look t y → x = y) (l : List (Fin 256)) (i : Table)
    {x : Fin 256} (hx : x ∈ l) :
    look (l.foldl (fun acc z => put acc (look t (BitVec.ofFin z)) (BitVec.ofFin z)) i) (look t (BitVec.ofFin x)) =
      BitVec.ofFin x := by
  induction l using List.reverseRecOn with
  | nil => cases hx
  | append_singleton l y ih =>
    rw [List.foldl_append]
    simp only [List.foldl_cons, List.foldl_nil]
    by_cases hxy : y = x
    · subst hxy
      simp
    · have hne : look t (BitVec.ofFin y) ≠ look t (BitVec.ofFin x) := fun h => hxy (by simpa using inj _ _ h)
      rw [look_put_other _ _ hne]
      exact ih (by simpa [Ne.symm hxy] using hx)

/-- GenInv of a one-to-one table undoes it. -/
theorem look_genInv {t : Table} (inj : ∀ x y, look t x = look t y → x = y) (i : Table) (x : Byte) :
    look (genInv t i) (look t x) = x :=
  look_foldl_put_mem inj (List.finRange 256) i (x := x.toFin) (List.mem_finRange _)

/-- GenInv of a permutation writes every entry, so it does not depend on what the inverse table held before. -/
theorem genInv_base {t : Table} (inj : ∀ x y, look t x = look t y → x = y) (surj : ∀ y, ∃ x, look t x = y)
    (i i' : Table) : genInv t i = genInv t i' := by
  apply table_ext
  intro y
  obtain ⟨x, rfl⟩ := surj y
  rw [look_genInv inj, look_genInv inj]

end Sys2Proof.Machine
end

