-- ==== Sys2Proof/Laws/Window.lean ====
section
/-! SUPPORT. The address decoding of the window: which offset an access has, which register an offset names, and when
it is the host's turn. -/

namespace Sys2Proof.Machine

/-- An aligned 32-bit access inside the window has its offset. -/
theorem accessOffset_inside {s : State} {off : Nat} (h : off < 4096) (h4 : off % 4 = 0) :
    accessOffset s (base s + off) 4 = .ok off := by
  simp [accessOffset, Config.accessBytes, Config.windowBytes, h4, h]

/-- An access inside the window that is not an aligned 32-bit one is a bus error. -/
theorem accessOffset_busError {s : State} {addr bytes : Nat} (hl : base s ≤ addr) (hh : addr < base s + 4096)
    (h : bytes ≠ 4 ∨ (addr - base s) % 4 ≠ 0) : accessOffset s addr bytes = .error (.busError addr) := by
  unfold accessOffset Config.accessBytes Config.windowBytes
  rw [if_neg (by omega), if_pos h]

/-- An access outside the window is not the core's. -/
theorem accessOffset_outside {s : State} {addr bytes : Nat} (h : addr < base s ∨ base s + 4096 ≤ addr) :
    accessOffset s addr bytes = .error (.outsideWindow addr) := by
  unfold accessOffset Config.windowBytes
  rw [if_pos h]

/-- BASE does not depend on the pending operations. -/
@[simp] theorem base_setHost (h : List HostEvent) (s : State) : base (setHost h s) = base s := rfl

/-- The offset of a register names it. -/
theorem regAt_regOffset (r : Reg) : regAt (regOffset r) = some r := by
  cases r with
  | key k => revert k; decide
  | din k => revert k; decide
  | dout k => revert k; decide
  | w i => revert i; decide
  | cmd => rfl
  | status => rfl
  | result => rfl
  | fsm => rfl

/-- Every register's offset is aligned and in the window. -/
theorem regOffset_inside (r : Reg) : regOffset r < 4096 ∧ regOffset r % 4 = 0 := by
  cases r with
  | key k => simp only [regOffset]; omega
  | din k => simp only [regOffset]; omega
  | dout k => simp only [regOffset]; omega
  | w i => simp only [regOffset]; omega
  | cmd => decide
  | status => decide
  | result => decide
  | fsm => decide

/-- It is the host's turn when the delay of its next operation is used up or the engine has nothing to do. -/
theorem nextTurn_host {s : State} {d : Nat} {op : HostOp} {rest : List HostEvent} (h : s.host = ⟨d, op⟩ :: rest)
    (hd : d = 0 ∨ s.queue = []) : nextTurn s = .host op (setHost rest s) := by
  unfold nextTurn
  rw [h]
  rcases hq : s.queue with _ | ⟨m, q⟩
  · rfl
  · have : d = 0 := by simpa [hq] using hd
    subst this
    rfl

/-! ## The loop `wait` -/

/-- A poll that finds BUSY = 0 leaves the loop. -/
theorem waitTurn_idle {s : State} (gaps : List Nat) (h : s.status.busy = false) : waitTurn gaps s = pollStatus s := by
  simp [waitTurn, h]

/-- A poll that finds BUSY = 1 with a gap left goes on after that gap. -/
theorem waitTurn_busy_gap {s : State} (g : Nat) (gs : List Nat) (h : s.status.busy = true) :
    waitTurn (g :: gs) s = setHost (⟨g, .wait gs⟩ :: s.host) (pollStatus s) := by
  simp [waitTurn, h]

/-- A poll that finds BUSY = 1 with no gap left goes on after the rest of Q. -/
theorem waitTurn_busy_last {s : State} (h : s.status.busy = true) :
    waitTurn [] s = setHost (⟨s.queue.length, .wait []⟩ :: s.host) (pollStatus s) := by
  simp [waitTurn, h]

/-- A poll changes the read log only: STATUS is defined at all times. -/
theorem pollStatus_eq (s : State) : pollStatus s = logRead (regAddr s .status) (statusWord s.status) s := by
  simp [pollStatus, regRead, openWhileBusy, regValue]

/-- A read of STATUS in the host's list does to the machine what one poll of a `wait` does (log entry 14). -/
theorem hostTurn_read_status (s : State) : hostTurn (.read (regAddr s .status) 4) s = .next (pollStatus s) := by
  have h := regOffset_inside .status
  simp [hostTurn, memRead, pollStatus, regAddr, accessOffset_inside h.1 h.2, regAt_regOffset]

end Sys2Proof.Machine
end

