-- ==== Sys2Proof/Tests/Slice0.lean ====
section
/-! SUPPORT. Tests and witnesses. Every expected value is the spec's: a rule's example, a table of the rules, or a
vector of 95_test_vectors.md. A witness shows that the hypotheses of a statement can be met. -/

namespace Sys2Proof.Machine

/-! ## Well-formedness -/

/-- R94, R127: 4, 8 and 0xFF are no multiplier constants. -/
theorem test_wellFormed_refuses_multipliers :
    (Instr.gfMul 0x57 0x04).wellFormed = false ∧ (Instr.gfMul 0x57 0x08).wellFormed = false ∧
    (Instr.gfMul 0x57 0xFF).wellFormed = false := by decide

/-- R92: there is no round key 15. -/
theorem test_wellFormed_refuses_round : (Instr.addRoundKey 15).wellFormed = false := by decide

theorem test_wellFormed_accepts :
    (Instr.addRoundKey 14).wellFormed = true ∧ (Instr.gfMul 0xFF 0x0E).wellFormed = true ∧
    (Instr.gfMul 0 0).wellFormed = true := by decide

/-! ## Decoding: words written out field by field, C X RSV1 RND RSV0 OP (R90, R97) -/

theorem test_decode_nop :
    decode (0b00000000#8 ++ 0b00000000#8 ++ 0b0000#4 ++ 0b0000#4 ++ 0b000#3 ++ 0b00000#5) = .ok .nop := by decide

theorem test_decode_expandKey :
    decode (0b00000000#8 ++ 0b00000000#8 ++ 0b0000#4 ++ 0b0000#4 ++ 0b000#3 ++ 0b00001#5) = .ok .expandKey := by decide

theorem test_decode_encryptBlock :
    decode (0b00000000#8 ++ 0b00000000#8 ++ 0b0000#4 ++ 0b0000#4 ++ 0b000#3 ++ 0b00010#5) = .ok .encryptBlock := by decide

theorem test_decode_decryptBlock :
    decode (0b00000000#8 ++ 0b00000000#8 ++ 0b0000#4 ++ 0b0000#4 ++ 0b000#3 ++ 0b00011#5) = .ok .decryptBlock := by decide

theorem test_decode_genTables :
    decode (0b00000000#8 ++ 0b00000000#8 ++ 0b0000#4 ++ 0b0000#4 ++ 0b000#3 ++ 0b00100#5) = .ok .genTables := by decide

theorem test_decode_sboxLookup :
    decode (0b00000000#8 ++ 0b01010011#8 ++ 0b0000#4 ++ 0b0000#4 ++ 0b000#3 ++ 0b00101#5) = .ok (.sboxLookup 0x53) := by decide

theorem test_decode_invSboxLookup :
    decode (0b00000000#8 ++ 0b11101101#8 ++ 0b0000#4 ++ 0b0000#4 ++ 0b000#3 ++ 0b00110#5) = .ok (.invSboxLookup 0xED) := by decide

theorem test_decode_gfMul :
    decode (0b00001110#8 ++ 0b01010111#8 ++ 0b0000#4 ++ 0b0000#4 ++ 0b000#3 ++ 0b00111#5) = .ok (.gfMul 0x57 0x0E) := by decide

theorem test_decode_loadState :
    decode (0b00000000#8 ++ 0b00000000#8 ++ 0b0000#4 ++ 0b0000#4 ++ 0b000#3 ++ 0b01000#5) = .ok .loadState := by decide

theorem test_decode_unloadState :
    decode (0b00000000#8 ++ 0b00000000#8 ++ 0b0000#4 ++ 0b0000#4 ++ 0b000#3 ++ 0b01001#5) = .ok .unloadState := by decide

theorem test_decode_subBytes :
    decode (0b00000000#8 ++ 0b00000000#8 ++ 0b0000#4 ++ 0b0000#4 ++ 0b000#3 ++ 0b01010#5) = .ok .subBytes := by decide

theorem test_decode_invSubBytes :
    decode (0b00000000#8 ++ 0b00000000#8 ++ 0b0000#4 ++ 0b0000#4 ++ 0b000#3 ++ 0b01011#5) = .ok .invSubBytes := by decide

theorem test_decode_shiftRows :
    decode (0b00000000#8 ++ 0b00000000#8 ++ 0b0000#4 ++ 0b0000#4 ++ 0b000#3 ++ 0b01100#5) = .ok .shiftRows := by decide

theorem test_decode_invShiftRows :
    decode (0b00000000#8 ++ 0b00000000#8 ++ 0b0000#4 ++ 0b0000#4 ++ 0b000#3 ++ 0b01101#5) = .ok .invShiftRows := by decide

theorem test_decode_mixColumns :
    decode (0b00000000#8 ++ 0b00000000#8 ++ 0b0000#4 ++ 0b0000#4 ++ 0b000#3 ++ 0b01110#5) = .ok .mixColumns := by decide

theorem test_decode_invMixColumns :
    decode (0b00000000#8 ++ 0b00000000#8 ++ 0b0000#4 ++ 0b0000#4 ++ 0b000#3 ++ 0b01111#5) = .ok .invMixColumns := by decide

theorem test_decode_addRoundKey :
    decode (0b00000000#8 ++ 0b00000000#8 ++ 0b0000#4 ++ 0b1110#4 ++ 0b000#3 ++ 0b10000#5) = .ok (.addRoundKey 14) := by decide

/-- R103, 95_test_vectors.md 3.1 and 3.6: the words that do not decode. -/
theorem test_decode_refuses :
    decode 0x00000011 = .error .reservedOpcode ∧ decode 0x0000001F = .error .reservedOpcode ∧
    decode 0x00000020 = .error .reservedBits ∧ decode 0x00001000 = .error .reservedBits ∧
    decode 0x00000100 = .error .unusedRnd ∧ decode 0x02570107 = .error .unusedRnd ∧
    decode 0x0001000A = .error .unusedX ∧ decode 0x00100010 = .error .unusedX ∧
    decode 0x01000005 = .error .unusedC := by decide

/-- R103: the encoding examples. -/
theorem test_encode :
    encode .expandKey = 0x00000001 ∧ encode (.addRoundKey 1) = 0x00000110 ∧
    encode (.addRoundKey 14) = 0x00000E10 ∧ encode (.sboxLookup 0x53) = 0x00530005 ∧
    encode (.gfMul 0x57 2) = 0x02570007 ∧ encode (.gfMul 0x57 14) = 0x0E570007 := by decide

theorem test_decodeTableWord :
    decodeTableWord 32 0x00000E10 = some (.addRoundKey 14) ∧ decodeTableWord 32 0x11 = none ∧
    decodeTableWord 8 0x110 = some (.addRoundKey 0) := by decide

/-! ## Arithmetic and tables -/

/-- 95_test_vectors.md 3.1. -/
theorem test_xtime :
    xtime 0x57 = 0xAE ∧ xtime 0x80 = 0x1B ∧ xtime 0xFF = 0xE5 ∧ xtime 0 = 0 ∧ xtime 0x8D = 0x01 := by decide

/-- 95_test_vectors.md 3.1, the row of 0xCA, and that 0x53 and 0xCA are inverses. -/
theorem test_gmul :
    [GfConst.c0, .c1, .c2, .c3, .c9, .c11, .c13, .c14].map (gmul 0xCA) =
      [0x00, 0xCA, 0x8F, 0x45, 0xC0, 0x4F, 0xC5, 0x80] ∧ fmul 0x53 0xCA = 0x01 := by decide

/-- 95_test_vectors.md 3.2. -/
theorem test_affine :
    affine 0x00 = 0x63 ∧ affine 0x01 = 0x7C ∧ affine 0x8D = 0x77 ∧ affine 0xCA = 0xED ∧ affine 0xFF = 0x9C := by
  decide

/-- The forward table as R136 prints it. -/
def specSbox : List Byte :=
  [0x63, 0x7c, 0x77, 0x7b, 0xf2, 0x6b, 0x6f, 0xc5, 0x30, 0x01, 0x67, 0x2b, 0xfe, 0xd7, 0xab, 0x76,
   0xca, 0x82, 0xc9, 0x7d, 0xfa, 0x59, 0x47, 0xf0, 0xad, 0xd4, 0xa2, 0xaf, 0x9c, 0xa4, 0x72, 0xc0,
   0xb7, 0xfd, 0x93, 0x26, 0x36, 0x3f, 0xf7, 0xcc, 0x34, 0xa5, 0xe5, 0xf1, 0x71, 0xd8, 0x31, 0x15,
   0x04, 0xc7, 0x23, 0xc3, 0x18, 0x96, 0x05, 0x9a, 0x07, 0x12, 0x80, 0xe2, 0xeb, 0x27, 0xb2, 0x75] ++
  [0x09, 0x83, 0x2c, 0x1a, 0x1b, 0x6e, 0x5a, 0xa0, 0x52, 0x3b, 0xd6, 0xb3, 0x29, 0xe3, 0x2f, 0x84,
   0x53, 0xd1, 0x00, 0xed, 0x20, 0xfc, 0xb1, 0x5b, 0x6a, 0xcb, 0xbe, 0x39, 0x4a, 0x4c, 0x58, 0xcf,
   0xd0, 0xef, 0xaa, 0xfb, 0x43, 0x4d, 0x33, 0x85, 0x45, 0xf9, 0x02, 0x7f, 0x50, 0x3c, 0x9f, 0xa8,
   0x51, 0xa3, 0x40, 0x8f, 0x92, 0x9d, 0x38, 0xf5, 0xbc, 0xb6, 0xda, 0x21, 0x10, 0xff, 0xf3, 0xd2] ++
  [0xcd, 0x0c, 0x13, 0xec, 0x5f, 0x97, 0x44, 0x17, 0xc4, 0xa7, 0x7e, 0x3d, 0x64, 0x5d, 0x19, 0x73,
   0x60, 0x81, 0x4f, 0xdc, 0x22, 0x2a, 0x90, 0x88, 0x46, 0xee, 0xb8, 0x14, 0xde, 0x5e, 0x0b, 0xdb,
   0xe0, 0x32, 0x3a, 0x0a, 0x49, 0x06, 0x24, 0x5c, 0xc2, 0xd3, 0xac, 0x62, 0x91, 0x95, 0xe4, 0x79,
   0xe7, 0xc8, 0x37, 0x6d, 0x8d, 0xd5, 0x4e, 0xa9, 0x6c, 0x56, 0xf4, 0xea, 0x65, 0x7a, 0xae, 0x08] ++
  [0xba, 0x78, 0x25, 0x2e, 0x1c, 0xa6, 0xb4, 0xc6, 0xe8, 0xdd, 0x74, 0x1f, 0x4b, 0xbd, 0x8b, 0x8a,
   0x70, 0x3e, 0xb5, 0x66, 0x48, 0x03, 0xf6, 0x0e, 0x61, 0x35, 0x57, 0xb9, 0x86, 0xc1, 0x1d, 0x9e,
   0xe1, 0xf8, 0x98, 0x11, 0x69, 0xd9, 0x8e, 0x94, 0x9b, 0x1e, 0x87, 0xe9, 0xce, 0x55, 0x28, 0xdf,
   0x8c, 0xa1, 0x89, 0x0d, 0xbf, 0xe6, 0x42, 0x68, 0x41, 0x99, 0x2d, 0x0f, 0xb0, 0x54, 0xbb, 0x16]

/-- The inverse table as R140 prints it. -/
def specInvSbox : List Byte :=
  [0x52, 0x09, 0x6a, 0xd5, 0x30, 0x36, 0xa5, 0x38, 0xbf, 0x40, 0xa3, 0x9e, 0x81, 0xf3, 0xd7, 0xfb,
   0x7c, 0xe3, 0x39, 0x82, 0x9b, 0x2f, 0xff, 0x87, 0x34, 0x8e, 0x43, 0x44, 0xc4, 0xde, 0xe9, 0xcb,
   0x54, 0x7b, 0x94, 0x32, 0xa6, 0xc2, 0x23, 0x3d, 0xee, 0x4c, 0x95, 0x0b, 0x42, 0xfa, 0xc3, 0x4e,
   0x08, 0x2e, 0xa1, 0x66, 0x28, 0xd9, 0x24, 0xb2, 0x76, 0x5b, 0xa2, 0x49, 0x6d, 0x8b, 0xd1, 0x25] ++
  [0x72, 0xf8, 0xf6, 0x64, 0x86, 0x68, 0x98, 0x16, 0xd4, 0xa4, 0x5c, 0xcc, 0x5d, 0x65, 0xb6, 0x92,
   0x6c, 0x70, 0x48, 0x50, 0xfd, 0xed, 0xb9, 0xda, 0x5e, 0x15, 0x46, 0x57, 0xa7, 0x8d, 0x9d, 0x84,
   0x90, 0xd8, 0xab, 0x00, 0x8c, 0xbc, 0xd3, 0x0a, 0xf7, 0xe4, 0x58, 0x05, 0xb8, 0xb3, 0x45, 0x06,
   0xd0, 0x2c, 0x1e, 0x8f, 0xca, 0x3f, 0x0f, 0x02, 0xc1, 0xaf, 0xbd, 0x03, 0x01, 0x13, 0x8a, 0x6b] ++
  [0x3a, 0x91, 0x11, 0x41, 0x4f, 0x67, 0xdc, 0xea, 0x97, 0xf2, 0xcf, 0xce, 0xf0, 0xb4, 0xe6, 0x73,
   0x96, 0xac, 0x74, 0x22, 0xe7, 0xad, 0x35, 0x85, 0xe2, 0xf9, 0x37, 0xe8, 0x1c, 0x75, 0xdf, 0x6e,
   0x47, 0xf1, 0x1a, 0x71, 0x1d, 0x29, 0xc5, 0x89, 0x6f, 0xb7, 0x62, 0x0e, 0xaa, 0x18, 0xbe, 0x1b,
   0xfc, 0x56, 0x3e, 0x4b, 0xc6, 0xd2, 0x79, 0x20, 0x9a, 0xdb, 0xc0, 0xfe, 0x78, 0xcd, 0x5a, 0xf4] ++
  [0x1f, 0xdd, 0xa8, 0x33, 0x88, 0x07, 0xc7, 0x31, 0xb1, 0x12, 0x10, 0x59, 0x27, 0x80, 0xec, 0x5f,
   0x60, 0x51, 0x7f, 0xa9, 0x19, 0xb5, 0x4a, 0x0d, 0x2d, 0xe5, 0x7a, 0x9f, 0x93, 0xc9, 0x9c, 0xef,
   0xa0, 0xe0, 0x3b, 0x4d, 0xae, 0x2a, 0xf5, 0xb0, 0xc8, 0xeb, 0xbb, 0x3c, 0x83, 0x53, 0x99, 0x61,
   0x17, 0x2b, 0x04, 0x7e, 0xba, 0x77, 0xd6, 0x26, 0xe1, 0x69, 0x14, 0x63, 0x55, 0x21, 0x0c, 0x7d]

/-- The forward table of R136, as a table. -/
def specTable : Table := ⟨specSbox.toArray, by decide +kernel⟩

/-- The inverse table of R140, as a table. -/
def specInvTable : Table := ⟨specInvSbox.toArray, by decide +kernel⟩

/-- The generator gives the table of R136. -/
theorem test_genSbox : genSbox = specTable := by decide +kernel

/-- The inverse table is that of R140. -/
theorem test_invSbox : invSboxTable = specInvTable := by
  have hl : ∀ x, look specInvTable (look specTable x) = x := by decide +kernel
  have hr : ∀ y, look specTable (look specInvTable y) = y := by decide +kernel
  apply table_ext
  intro y
  rw [invSboxTable, test_genSbox, ← hr y, look_genInv (fun x z h => by rw [← hl x, h, hl]), hl]

/-- 95_test_vectors.md 3.3. -/
theorem test_rotWord_subWord :
    rotWord 0x0914DFF4 = 0x14DFF409 ∧ rotWord 0x12345678 = 0x34567812 ∧
    subWord specTable 0x12345678 = 0xC918B1BC ∧ subWord specTable 0x14DFF409 = 0xFA9EBF01 := by decide +kernel

/-- R163. -/
theorem test_rconWord : rconWord 0 = 0x01000000 ∧ rconWord 8 = 0x1B000000 ∧ rconWord 9 = 0x36000000 := by decide

/-! ## Commands -/

/-- The command with all its micro-steps. -/
def after (i : Instr) (s : State) : State :=
  match exec i s with
  | .next t => drain t
  | .fault _ => s
  | .refused _ => s

/-- The block 00010203 04050607 08090a0b 0c0d0e0f of 95_test_vectors.md 3.4. -/
def countBlock : Vector Word 4 := #v[0x00010203, 0x04050607, 0x08090A0B, 0x0C0D0E0F]

/-- An idle core with both tables, a schedule whose last round key is that of KAT-1 (95_test_vectors.md 3.3), and
`countBlock` in DIN and in S. -/
def readyState : State :=
  { State.reset with
    din := countBlock
    mat := loadBlock countBlock
    w := ((((Vector.replicate 60 0).set 56 0xFE4890D1).set 57 0xE6188D0B).set 58 0x046DF344).set 59 0x706C631E
    sbox := specTable
    invSbox := specInvTable
    status := { State.reset.status with keyValid := true, sboxValid := true, invValid := true } }

/-- A core whose last command word was rejected as illegal: DONE, ERR and ERR_STICKY are set. -/
def failedState : State :=
  { State.reset with status := { State.reset.status with done := true, errSticky := true, err := .illegalCommand } }

/-- A core that is performing the micro-step `m`, with the tables and the schedule of `readyState`. -/
def runningState (m : MicroOp) : State :=
  { readyState with
    status := { readyState.status with busy := true, keyValid := false }
    queue := [plainStep m] }

/-- R240's example: STATUS 0x00000422 becomes 0x00000022. -/
theorem test_nop :
    statusWord failedState.status = 0x00000422 ∧ statusWord (after .nop failedState).status = 0x00000022 := by decide

/-- 95_test_vectors.md 3.3 and R171: W8 and W12 of KAT-1, the two branches of the recurrence. -/
theorem test_expandKey_words :
    (engineStep { runningState (.kexp 8) with
      w := ((Vector.replicate 60 0).set 0 0x603DEB10).set 7 0x0914DFF4 }).w[8] = 0x9BA35411 ∧
    (engineStep { runningState (.kexp 12) with
      w := ((Vector.replicate 60 0).set 4 0x1F352C07).set 11 0x2067FCDE }).w[12] = 0xA8B09C1A := by decide +kernel

/-- R168: KEXP(59) sets KEY_VALID. -/
theorem test_expandKey_last :
    statusWord (engineStep (runningState (.kexp 59))).status = 0x0000001E ∧
    (engineStep (runningState (.kexp 59))).fsm.kidx = 59 := by decide +kernel

/-- 95_test_vectors.md 3.6: ENCRYPT_BLOCK after reset. -/
theorem test_encryptBlock_rejected :
    statusWord (after .encryptBlock State.reset).status = 0x00000122 ∧
    fsmWord (after .encryptBlock State.reset).fsm = 0x02000000 := by decide

/-- KAT-1, the source's known answer. -/
theorem test_encrypt_kat1 :
    encrypt #v[0x6BC1BEE2, 0x2E409F96, 0xE93D7E11, 0x7393172A]
      (expandKey #v[0x603DEB10, 0x15CA71BE, 0x2B73AEF0, 0x857D7781, 0x1F352C07, 0x3B6108D7, 0x2D9810A3, 0x0914DFF4]) =
      #v[0xF3EED1BD, 0xB5D2A03C, 0x064B5A7E, 0x3DB181F8] := by
  simp only [encrypt, encryptMat, encMiddle, expandKey, test_genSbox]
  decide +kernel

/-- P5: DECRYPT_BLOCK without a schedule. -/
theorem test_decryptBlock_rejected :
    (after .decryptBlock State.reset).status.err = .invalidArgument ∧
    (after .decryptBlock State.reset).fsm.op = 0x03 := by decide

/-- R142: with both tables valid the command completes at acceptance. -/
theorem test_genTables_idempotent :
    (after .genTables readyState).queue = [] ∧ (after .genTables readyState).status.done = true ∧
    (after .genTables readyState).status.busy = false := by decide +kernel

/-- R142's example: two micro-steps from reset. -/
theorem test_genTables :
    exec .genTables State.reset = .next { State.reset with
      status := { State.reset.status with busy := true }
      fsm := ⟨.idle, 0, 0, 0x04⟩
      latch := ⟨0x04, 0, 0, 0⟩
      queue := [plainStep .genFwd, plainStep .genInv] } := by rfl

/-- R143's example, with the tables valid. -/
theorem test_sboxLookup : (after (.sboxLookup 0x53) readyState).result = 0x000000ED := by decide +kernel

/-- R144's example, with the tables valid. -/
theorem test_invSboxLookup : (after (.invSboxLookup 0xED) readyState).result = 0x00000053 := by decide +kernel

/-- R128's example, and P4 line 1. -/
theorem test_gfMul :
    (after (.gfMul 0x57 2) State.reset).result = 0x000000AE ∧
    statusWord (after (.gfMul 0x57 2) State.reset).status = 0x00000002 ∧
    fsmWord (after (.gfMul 0x57 2) State.reset).fsm = 0x07000000 := by decide

/-- P4 line 2: a constant outside the set. -/
theorem test_gfMul_rejected :
    statusWord (after (.gfMul 0x57 4) State.reset).status = 0x00000322 ∧
    (after (.gfMul 0x57 4) State.reset).result = 0 := by decide

/-- R182's example. -/
theorem test_loadState :
    let t := after .loadState { State.reset with din := countBlock }
    cell t.mat 1 0 = 0x01 ∧ cell t.mat 0 1 = 0x04 ∧ cell t.mat 3 3 = 0x0F := by decide +kernel

/-- R184's example. -/
theorem test_unloadState : (after .unloadState readyState).dout = countBlock := by decide +kernel

/-! The rows of 95_test_vectors.md 3.4. -/

theorem test_subBytes :
    unloadBlock (after .subBytes readyState).mat = #v[0x637C777B, 0xF26B6FC5, 0x3001672B, 0xFED7AB76] := by
  decide +kernel

theorem test_invSubBytes :
    unloadBlock (after .invSubBytes readyState).mat = #v[0x52096AD5, 0x3036A538, 0xBF40A39E, 0x81F3D7FB] := by
  decide +kernel

theorem test_shiftRows :
    unloadBlock (after .shiftRows readyState).mat = #v[0x00050A0F, 0x04090E03, 0x080D0207, 0x0C01060B] := by
  decide +kernel

theorem test_invShiftRows :
    unloadBlock (after .invShiftRows readyState).mat = #v[0x000D0A07, 0x04010E0B, 0x0805020F, 0x0C090603] := by
  decide +kernel

theorem test_mixColumns :
    unloadBlock (after .mixColumns readyState).mat = #v[0x02070005, 0x06030401, 0x0A0F080D, 0x0E0B0C09] := by
  decide +kernel

theorem test_invMixColumns :
    unloadBlock (after .invMixColumns readyState).mat = #v[0x0A0F080D, 0x0E0B0C09, 0x02070005, 0x06030401] := by
  decide +kernel

/-- The single columns db135345 and d4d4d4d5 of 3.4. -/
theorem test_mixCol :
    mixCol 0xDB 0x13 0x53 0x45 = #v[0x8E, 0x4D, 0xA1, 0xBC] ∧ mixCol 0xD4 0xD4 0xD4 0xD5 = #v[0xD5, 0xD5, 0xD7, 0xD6] ∧
    invMixCol 0xD4 0xD4 0xD4 0xD5 = #v[0xDD, 0xD9, 0xDF, 0xDA] := by decide

theorem test_addRoundKey :
    unloadBlock (after (.addRoundKey 14) readyState).mat = #v[0xFE4992D2, 0xE21D8B0C, 0x0C64F94F, 0x7C616D11] ∧
    (after (.addRoundKey 14) readyState).fsm.round = 14 := by decide +kernel

/-- 95_test_vectors.md 3.6: RND = 15 is rejected whatever KEY_VALID is. -/
theorem test_addRoundKey_rejected :
    (after (.addRoundKey 15) readyState).status.err = .invalidArgument ∧
    (after (.addRoundKey 0) State.reset).status.err = .invalidArgument := by decide +kernel

/-! ## The window -/

/-- P5 line 2: a reserved opcode written to CMD after P5 line 1. -/
theorem test_illegalWord :
    let t := presentIllegal 0x00000011 (after .encryptBlock State.reset)
    statusWord t.status = 0x00000422 ∧ fsmWord t.fsm = 0x11000000 := by decide

/-- R68's example: the first bytes of the key. -/
theorem test_keyWord :
    keyWord ((((Vector.replicate 32 0).set 0 0x60).set 1 0x3D).set 2 0xEB |>.set 3 0x10) 0 = 0x603DEB10 := by decide

/-- R107, R104: `rdblk` reads offsets 0x030 to 0x03C. -/
theorem test_rdblk : lineOps 0x8000 [] .rdblk = [.read 0x8030 4, .read 0x8034 4, .read 0x8038 4, .read 0x803C 4] := by
  decide

/-- R106, R225: a program's `wait` can find BUSY = 1 any number of times. Here its line is given two gaps, and a poll that
finds BUSY = 1 takes the first; with none left the rest of Q comes next. -/
theorem test_wait_gaps :
    programEvents 0x8000 [.cmd Instr.nop.fields, .wait, .rd .result] [[], [0, 1]] [0, 2] =
      [⟨0, .write 0x8040 4 0x00000000⟩, ⟨2, .wait [0, 1]⟩, ⟨0, .read 0x8048 4⟩] ∧
    (waitTurn [0, 1] (runningState .prim)).host = [⟨0, .wait [1]⟩] ∧
    (waitTurn [] (runningState .prim)).host = [⟨1, .wait []⟩] ∧ (waitTurn [0, 1] readyState).host = [] := by decide

/-- The step after `withFetchWord` accepts the word: ENCRYPT_BLOCK is rejected after reset. -/
theorem test_withFetchWord :
    step (State.reset.withFetchWord 32 0x00000002) = .next (cmdError .invalidArgument 0x02 State.reset) := by rfl

/-! ## Witnesses: the hypotheses of each statement, met together -/

/-- The core after reset, with one host operation to come. -/
def hostState (op : HostOp) : State := { State.reset with host := [⟨0, op⟩] }

/-- A core that performs NOP, with one host operation to come before its micro-step. -/
def busyHostState (op : HostOp) : State :=
  { State.reset with
    status := { State.reset.status with busy := true }
    queue := [plainStep .prim]
    host := [⟨0, op⟩] }

/-- A core at BASE = 0x1000 with one host operation to come. -/
def basedState (op : HostOp) : State := { hostState op with baseBlock := 1 }

theorem nextOp_host (op : HostOp) : NextOp (hostState op) op [] := ⟨0, rfl, .inl rfl⟩
theorem nextOp_busy (op : HostOp) : NextOp (busyHostState op) op [] := ⟨0, rfl, .inl rfl⟩
theorem nextOp_based (op : HostOp) : NextOp (basedState op) op [] := ⟨0, rfl, .inl rfl⟩

/-- A delay that is not used up does not matter while Q is empty. -/
theorem witness_NextOp_delayed (op : HostOp) : NextOp { State.reset with host := [⟨3, op⟩] } op [] :=
  ⟨3, rfl, .inr rfl⟩

theorem witness_EncodeUndoesDecode : ∃ w i, decode w = .ok i := ⟨0x00000E10, .addRoundKey 14, by decide⟩

theorem witness_DecodeRefusesExactlyIllegalWords :
    IllegalWord 0x00000020 ∧ IllegalWord 0x00001000 ∧ IllegalWord 0x00000011 ∧ IllegalWord 0x0000001F ∧
    IllegalWord 0x0000010F ∧ IllegalWord 0x00010004 ∧ IllegalWord 0x00010008 ∧ IllegalWord 0x01000006 ∧
    ¬ IllegalWord 0x00000010 ∧ ¬ IllegalWord 0x00000F10 ∧ ¬ IllegalWord 0x00FF0005 ∧ ¬ IllegalWord 0xFFFF0007 := by
  unfold IllegalWord
  refine ⟨?_, ?_, ?_, ?_, ?_, ?_, ?_, ?_, ?_, ?_, ?_, ?_⟩ <;> decide

theorem witness_CommandLineWritesTheShiftedFields :
    lineFields (.addRoundKey 15) = (0x10, 15, 0, 0) ∧ lineFields (.gfMul 0xFF 0xFF) = (0x07, 0, 0xFF, 0xFF) :=
  ⟨rfl, rfl⟩

theorem witness_StepRunsTheDecodedCommand :
    ∃ s rest w i, NextOp s (.write (base s + 0x040) 4 w) rest ∧ decode w = .ok i :=
  ⟨hostState (.write 0x040 4 0x00000001), [], 0x00000001, .expandKey, nextOp_host _, by decide⟩

theorem witness_StepRunsTheDecodedCommand_busy :
    ∃ s rest w i, NextOp s (.write (base s + 0x040) 4 w) rest ∧ decode w = .ok i ∧ s.status.busy = true :=
  ⟨busyHostState (.write 0x040 4 0x00000001), [], 0x00000001, .expandKey, nextOp_busy _, by decide, rfl⟩

theorem witness_EngineMovesWhileQueueIsNonEmpty :
    (∃ (s : State) (d : Nat) (op : HostOp) (rest : List HostEvent), s.host = ⟨d + 1, op⟩ :: rest ∧ s.queue ≠ []) ∧
    (∃ s : State, s.host = [] ∧ s.queue ≠ []) ∧ (∃ s : State, s.host = [] ∧ s.queue = []) :=
  ⟨⟨{ runningState .prim with host := [⟨1, .check⟩] }, 0, .check, [], rfl, List.cons_ne_nil _ _⟩,
    ⟨runningState .prim, rfl, List.cons_ne_nil _ _⟩, ⟨State.reset, rfl, rfl⟩⟩

theorem witness_RunWithoutHostIsTheEngine : (runningState .sr).host = [] := rfl

/-- With the last micro-step, with another after it, with KEXP(59), and with an ISB that finds INV_VALID = 1. -/
theorem witness_EngineStepShowsAndCompletes :
    ((runningState .sr).queue = ⟨.sr, none⟩ :: [] ∧
      ¬((MicroOp.sr = .isb ∨ (MicroOp.sr = .prim ∧ (runningState .sr).latch.op = 0x06)) ∧
        (runningState .sr).status.invValid = false)) ∧
    (∃ rest, rest ≠ [] ∧ ({ readyState with queue := encSeq } : State).queue = ⟨.load, some 0⟩ :: rest ∧
      ¬((MicroOp.load = .isb ∨ (MicroOp.load = .prim ∧ readyState.latch.op = 0x06)) ∧
        readyState.status.invValid = false)) ∧
    ((runningState (.kexp 59)).queue = ⟨.kexp 59, none⟩ :: []) ∧
    ((runningState .isb).queue = ⟨.isb, none⟩ :: [] ∧
      ¬((MicroOp.isb = .isb ∨ (MicroOp.isb = .prim ∧ (runningState .isb).latch.op = 0x06)) ∧
        (runningState .isb).status.invValid = false)) :=
  ⟨⟨rfl, fun h => Bool.noConfusion h.2⟩,
    ⟨encSeq.tail, by decide, rfl, fun h => Bool.noConfusion h.2⟩, rfl, ⟨rfl, fun h => Bool.noConfusion h.2⟩⟩

/-- An ISB, and the PRIM of INV_SBOX_LOOKUP, that find INV_VALID = 0, and an ISB in a state with the invariant. -/
theorem witness_UninitializedInverseStopsTheCommand :
    (∃ (s : State) (m : MicroStep) (rest : List MicroStep), s.queue = m :: rest ∧ m.op = .isb ∧
      s.status.invValid = false) ∧
    (∃ (s : State) (m : MicroStep) (rest : List MicroStep), s.queue = m :: rest ∧
      (m.op = .prim ∧ s.latch.op = 0x06) ∧ s.status.invValid = false) ∧
    (∃ (s : State) (m : MicroStep) (rest : List MicroStep), s.queue = m :: rest ∧ m.op = .isb ∧ EngineInv s) :=
  ⟨⟨{ State.reset with queue := [plainStep .isb, plainStep .sr] }, plainStep .isb, [plainStep .sr], rfl, rfl, rfl⟩,
    ⟨{ State.reset with queue := [plainStep .prim], latch := ⟨0x06, 0, 0, 0⟩ }, plainStep .prim, [], rfl,
      ⟨rfl, rfl⟩, rfl⟩,
    ⟨runningState .isb, plainStep .isb, [], rfl, rfl,
      { busy_iff := by simp [runningState]
        idle_phase := fun h => Bool.noConfusion h
        running := fun _ => ⟨rfl, rfl⟩
        err_recorded := fun h => absurd rfl h
        never_uninitialized := fun h => ErrorCode.noConfusion h
        tables := ⟨fun _ => rfl, fun _ => test_genSbox.symm, fun _ => test_invSbox.symm⟩
        ready := rfl
        multiplier := fun h => absurd (show (0 : BitVec 5) = opGfMul from h) (by decide) }⟩⟩

theorem witness_MicroStepFrame :
    ∀ m : MicroOp, ∃ (s : State) (m' : MicroStep) (rest : List MicroStep), s.queue = m' :: rest ∧ m'.op = m :=
  fun m => ⟨runningState m, plainStep m, [], rfl, rfl⟩

/-- The first and the last offset of each range of registers that can be read at all times. -/
theorem witness_HostReadReturnsTheRegister_always :
    ∀ off ∈ [0x000, 0x01C, 0x020, 0x02C, 0x040, 0x044, 0x050, 0x0FC, 0x1F0, 0xFFC],
      NextOp (busyHostState (.read off 4)) (.read (base (busyHostState (.read off 4)) + off) 4) [] ∧
      ∃ v, AlwaysReads (busyHostState (.read off 4)) off v := by
  intro off h
  refine ⟨by rw [show base (busyHostState (.read off 4)) + off = off from Nat.zero_add off]; exact nextOp_busy _, ?_⟩
  simp only [List.mem_cons, List.not_mem_nil, or_false] at h
  rcases h with h | h | h | h | h | h | h | h | h | h <;> subst h
  · exact ⟨_, .inl ⟨0, rfl, rfl⟩⟩
  · exact ⟨_, .inl ⟨7, rfl, rfl⟩⟩
  · exact ⟨_, .inr (.inl ⟨0, rfl, rfl⟩)⟩
  · exact ⟨_, .inr (.inl ⟨3, rfl, rfl⟩)⟩
  · exact ⟨_, .inr (.inr (.inl ⟨rfl, rfl⟩))⟩
  · exact ⟨_, .inr (.inr (.inr (.inl ⟨rfl, rfl⟩)))⟩
  all_goals exact ⟨0, .inr (.inr (.inr (.inr ⟨rfl, by decide, rfl⟩)))⟩

/-- The same for the registers that can be read while BUSY = 0. -/
theorem witness_HostReadReturnsTheRegister_idle :
    ∀ off ∈ [0x030, 0x03C, 0x048, 0x04C, 0x100, 0x1EC],
      NextOp (hostState (.read off 4)) (.read (base (hostState (.read off 4)) + off) 4) [] ∧
      ∃ v, (hostState (.read off 4)).status.busy = false ∧ ReadsWhenIdle (hostState (.read off 4)) off v := by
  intro off h
  refine ⟨by rw [show base (hostState (.read off 4)) + off = off from Nat.zero_add off]; exact nextOp_host _, ?_⟩
  simp only [List.mem_cons, List.not_mem_nil, or_false] at h
  rcases h with h | h | h | h | h | h <;> subst h
  · exact ⟨_, rfl, .inl ⟨0, rfl, rfl⟩⟩
  · exact ⟨_, rfl, .inl ⟨3, rfl, rfl⟩⟩
  · exact ⟨_, rfl, .inr (.inl ⟨rfl, rfl⟩)⟩
  · exact ⟨_, rfl, .inr (.inr (.inl ⟨rfl, rfl⟩))⟩
  · exact ⟨_, rfl, .inr (.inr (.inr ⟨0, rfl, rfl⟩))⟩
  · exact ⟨_, rfl, .inr (.inr (.inr ⟨59, rfl, rfl⟩))⟩

theorem witness_BusyReadReturnsAFreeValue :
    ∀ off ∈ [0x030, 0x03C, 0x048, 0x04C, 0x100, 0x1EC],
      NextOp (busyHostState (.read off 4)) (.read (base (busyHostState (.read off 4)) + off) 4) [] ∧
      (busyHostState (.read off 4)).status.busy = true ∧ OpenOffset off := by
  intro off h
  refine ⟨by rw [show base (busyHostState (.read off 4)) + off = off from Nat.zero_add off]; exact nextOp_busy _,
    rfl, ?_⟩
  simp only [List.mem_cons, List.not_mem_nil, or_false] at h
  rcases h with h | h | h | h | h | h <;> subst h
  · exact .inl ⟨0, rfl⟩
  · exact .inl ⟨3, rfl⟩
  · exact .inr (.inl rfl)
  · exact .inr (.inr (.inl rfl))
  · exact .inr (.inr (.inr ⟨0, rfl⟩))
  · exact .inr (.inr (.inr ⟨59, rfl⟩))

/-- KEY0, KEY7, DIN0, DIN3, and the ends of the ranges a write has no effect on. -/
theorem witness_IdleHostWriteSetsKeyOrDin (v : Word) :
    (∀ off, NextOp (basedState (.write (0x1000 + off) 4 v))
      (.write (base (basedState (.write (0x1000 + off) 4 v)) + off) 4 v) [] ∧
      (basedState (.write (0x1000 + off) 4 v)).status.busy = false) ∧
    (∃ k : Fin 8, 0x000 = 0x000 + 4 * k.val) ∧ (∃ k : Fin 8, 0x01C = 0x000 + 4 * k.val) ∧
    (∃ k : Fin 4, 0x020 = 0x020 + 4 * k.val) ∧ (∃ k : Fin 4, 0x02C = 0x020 + 4 * k.val) ∧
    (∀ off ∈ [0x030, 0x03C, 0x044, 0x050, 0x1EC, 0xFFC],
      off % 4 = 0 ∧ 0x030 ≤ off ∧ off < 0x1000 ∧ off ≠ 0x040) :=
  ⟨fun _ => ⟨nextOp_based _, rfl⟩, ⟨0, rfl⟩, ⟨7, rfl⟩, ⟨0, rfl⟩, ⟨3, rfl⟩, by decide⟩

theorem witness_BusyHostWriteIsDropped (v : Word) :
    (∀ off, NextOp (busyHostState (.write off 4 v)) (.write (base (busyHostState (.write off 4 v)) + off) 4 v) [] ∧
      (busyHostState (.write off 4 v)).status.busy = true) ∧
    (∀ off ∈ [0x000, 0x02C, 0x040], off % 4 = 0 ∧ off < 0x1000 ∧ (off < 0x030 ∨ off = 0x040)) ∧
    (∀ off ∈ [0x030, 0x03C, 0x044, 0xFFC], off % 4 = 0 ∧ off < 0x1000 ∧ ¬(off < 0x030 ∨ off = 0x040)) :=
  ⟨fun off => ⟨by rw [show base (busyHostState (.write off 4 v)) + off = off from Nat.zero_add off]
                  exact nextOp_busy _, rfl⟩, by decide, by decide⟩

/-- A byte access at the first and the last address of the window, and a misaligned word access. -/
theorem witness_UnsupportedAccessIsABusError :
    ∀ p ∈ [(0x1000, 1), (0x1FFF, 1), (0x1002, 4)],
      NextOp (basedState (.read p.1 p.2)) (.read p.1 p.2) [] ∧ base (basedState (.read p.1 p.2)) ≤ p.1 ∧
      p.1 < base (basedState (.read p.1 p.2)) + 4096 ∧
      (p.2 ≠ 4 ∨ (p.1 - base (basedState (.read p.1 p.2))) % 4 ≠ 0) := by
  intro p h
  refine ⟨nextOp_based _, ?_⟩
  rw [show base (basedState (.read p.1 p.2)) = 0x1000 from rfl]
  revert p
  decide

theorem witness_UnsupportedAccessIsABusError_write :
    NextOp (basedState (.write 0x1001 4 0)) (.write 0x1001 4 0) [] ∧
    base (basedState (.write 0x1001 4 0)) ≤ 0x1001 ∧ 0x1001 < base (basedState (.write 0x1001 4 0)) + 4096 ∧
    (0x1001 - base (basedState (.write 0x1001 4 0))) % 4 ≠ 0 := by
  refine ⟨nextOp_based _, ?_⟩
  rw [show base (basedState (.write 0x1001 4 0)) = 0x1000 from rfl]
  decide

/-- The last address below the window and the first above it. -/
theorem witness_AccessOutsideWindowFaults :
    ∀ addr ∈ [0x0FFF, 0x2000],
      NextOp (basedState (.read addr 4)) (.read addr 4) [] ∧
      (addr < base (basedState (.read addr 4)) ∨ base (basedState (.read addr 4)) + 4096 ≤ addr) := by
  intro addr h
  refine ⟨nextOp_based _, ?_⟩
  rw [show base (basedState (.read addr 4)) = 0x1000 from rfl]
  revert addr
  decide

theorem witness_ResetEventRestoresResetValues :
    NextOp (hostState .reset) .reset [] ∧ NextOp (busyHostState .reset) .reset [] :=
  ⟨nextOp_host _, nextOp_busy _⟩

/-- A dropped write and a read while BUSY = 1. -/
theorem witness_HostCannotDisturbARunningCommand :
    (∃ t, NextOp (busyHostState (.write 0x000 4 1)) (.write 0x000 4 1) [] ∧
      (busyHostState (.write 0x000 4 1)).status.busy = true ∧ step (busyHostState (.write 0x000 4 1)) = .next t) ∧
    (∃ t, NextOp (busyHostState (.read 0x04C 4)) (.read 0x04C 4) [] ∧
      (busyHostState (.read 0x04C 4)).status.busy = true ∧ step (busyHostState (.read 0x04C 4)) = .next t) :=
  ⟨⟨_, nextOp_busy _, rfl, rfl⟩, ⟨_, nextOp_busy _, rfl, rfl⟩⟩

/-- A write to KEY0 changes it, a write to DIN3 changes it, and a reset clears KEY. -/
theorem witness_OnlyTheHostChangesKeyAndDin :
    (∃ t, step (hostState (.write 0x000 4 1)) = .next t ∧ t.key ≠ (hostState (.write 0x000 4 1)).key) ∧
    (∃ t, step (hostState (.write 0x02C 4 1)) = .next t ∧ t.din ≠ (hostState (.write 0x02C 4 1)).din) ∧
    (∃ t, step { hostState .reset with key := Vector.replicate 8 1 } = .next t ∧
      t.key ≠ Vector.replicate 8 1) :=
  ⟨⟨_, rfl, by decide⟩, ⟨_, rfl, by decide⟩, ⟨_, rfl, by decide⟩⟩

/-- A step with all four flags set, and a reset. -/
theorem witness_OnlyResetClearsStickyFlags :
    (∃ t, step { State.reset with status := ⟨false, true, true, true, true, true, true, .none⟩ } = .next t ∧
      ∀ rest, ¬ NextOp { State.reset with status := ⟨false, true, true, true, true, true, true, .none⟩ } .reset rest) ∧
    (∃ t, step (hostState .reset) = .next t ∧ NextOp (hostState .reset) .reset []) :=
  ⟨⟨_, rfl, fun _ h => by obtain ⟨_, h, _⟩ := h; cases h⟩, ⟨_, rfl, nextOp_host _⟩⟩

/-- The same with valid tables and the engine's invariant. -/
theorem witness_OnlyResetClearsStickyFlags_tables :
    ∃ t, step readyState = .next t ∧ (∀ rest, ¬ NextOp readyState .reset rest) ∧ EngineInv readyState ∧
      readyState.status.sboxValid = true ∧ readyState.status.invValid = true :=
  ⟨_, rfl, (fun _ h => by obtain ⟨_, h, _⟩ := h; cases h),
    { busy_iff := by simp [readyState, State.reset]
      idle_phase := fun _ => rfl
      running := fun h => Bool.noConfusion h
      err_recorded := fun h => absurd rfl h
      never_uninitialized := fun h => ErrorCode.noConfusion h
      tables := ⟨fun _ => rfl, fun _ => test_genSbox.symm, fun _ => test_invSbox.symm⟩
      ready := rfl
      multiplier := fun h => absurd (show (0 : BitVec 5) = opGfMul from h) (by decide) }, rfl, rfl⟩

/-- The engine's invariant after reset. -/
theorem engineInv_hostState (op : HostOp) : EngineInv (hostState op) where
  busy_iff := by simp [hostState, State.reset]
  idle_phase := fun _ => rfl
  running := fun h => Bool.noConfusion h
  err_recorded := fun h => absurd rfl h
  never_uninitialized := fun h => ErrorCode.noConfusion h
  tables := ⟨fun h => Bool.noConfusion h, fun h => Bool.noConfusion h, fun h => Bool.noConfusion h⟩
  ready := rfl
  multiplier := fun h => absurd (show (0 : BitVec 5) = opGfMul from h) (by decide)

/-- The engine's invariant while a command runs. -/
theorem engineInv_busyHostState (op : HostOp) : EngineInv (busyHostState op) where
  busy_iff := by simp [busyHostState]
  idle_phase := fun h => Bool.noConfusion h
  running := fun _ => ⟨rfl, rfl⟩
  err_recorded := fun h => absurd rfl h
  never_uninitialized := fun h => ErrorCode.noConfusion h
  tables := ⟨fun h => Bool.noConfusion h, fun h => Bool.noConfusion h, fun h => Bool.noConfusion h⟩
  ready := rfl
  multiplier := fun h => absurd (show (0 : BitVec 5) = opGfMul from h) (by decide)

theorem witness_WaitTerminates :
    (EngineInv (hostState (.wait [])) ∧ (hostState (.wait [])).host = ⟨0, .wait []⟩ :: []) ∧
    (EngineInv (busyHostState (.wait [0, 1])) ∧ (busyHostState (.wait [0, 1])).host = ⟨0, .wait [0, 1]⟩ :: []) :=
  ⟨⟨engineInv_hostState _, rfl⟩, ⟨engineInv_busyHostState _, rfl⟩⟩

/-- Every command is accepted somewhere: without a schedule, but for the three that need one. -/
theorem witness_AcceptedCommandQueuesItsMicroSteps :
    (∀ i ∈ [Instr.nop, .expandKey, .genTables, .sboxLookup 0xFF, .invSboxLookup 0xFF, .gfMul 0xFF 0x00,
        .gfMul 0xFF 0x0E, .loadState, .unloadState, .subBytes, .invSubBytes, .shiftRows, .invShiftRows, .mixColumns,
        .invMixColumns],
      State.reset.status.busy = false ∧ acceptanceError State.reset i = none) ∧
    (∀ i ∈ [Instr.encryptBlock, .decryptBlock, .addRoundKey 0, .addRoundKey 14],
      readyState.status.busy = false ∧ acceptanceError readyState i = none) := by
  decide +kernel

/-- Its two clauses: GEN_TABLES with both tables valid has nothing to perform, and after reset it has. -/
theorem witness_AcceptedCommandQueuesItsMicroSteps_clauses :
    (IsTablePrefix .genTables readyState.status [] ∧ [] ++ bodyOf .genTables = []) ∧
    (∃ p, IsTablePrefix .genTables State.reset.status p ∧ p ++ bodyOf .genTables ≠ []) :=
  ⟨⟨⟨[], [], rfl, fun h => Bool.noConfusion h.2, fun _ => rfl, fun h => Bool.noConfusion h.2, fun _ => rfl⟩, rfl⟩,
    ⟨[⟨.genFwd, none⟩, ⟨.genInv, none⟩], ⟨[⟨.genFwd, none⟩], [⟨.genInv, none⟩], rfl, fun _ => rfl,
      fun h => absurd ⟨.inr (.inr (.inr (.inr rfl))), rfl⟩ h, fun _ => rfl,
      fun h => absurd ⟨.inr (.inr (.inr rfl)), rfl⟩ h⟩, List.cons_ne_nil _ _⟩⟩

theorem witness_RejectedWordChangesOnlyErrorState :
    (State.reset.status.busy = false ∧
      acceptanceError State.reset (.gfMul 0x57 0x04) = some .contractViolation ∧
      acceptanceError State.reset (.addRoundKey 15) = some .invalidArgument ∧
      acceptanceError State.reset (.addRoundKey 14) = some .invalidArgument ∧
      acceptanceError State.reset .encryptBlock = some .invalidArgument ∧
      acceptanceError State.reset .decryptBlock = some .invalidArgument) ∧
    NextOp (hostState (.write 0x040 4 0x0000001F)) (.write 0x040 4 0x0000001F) [] ∧
    (hostState (.write 0x040 4 0x0000001F)).status.busy = false ∧ IllegalWord 0x0000001F :=
  ⟨by decide, nextOp_host _, rfl, by unfold IllegalWord; decide⟩

theorem witness_BusyCommandIsDropped : (runningState .prim).status.busy = true := rfl

theorem witness_PresentationFrame : ∃ t, exec .expandKey State.reset = .next t := ⟨_, rfl⟩

theorem witness_MicroStepCountIsTabulated :
    State.reset.status.busy = false ∧ State.reset.queue = [] ∧ acceptanceError State.reset .genTables = none ∧
    acceptanceError State.reset .encryptBlock ≠ none := by decide

/-- The hypotheses of the results of the commands that need tables, with no table and with both. -/
theorem witness_tables :
    (TablesOk State.reset ∧ State.reset.status.busy = false) ∧
    (TablesOk readyState ∧ readyState.status.busy = false ∧ readyState.status.keyValid = true) :=
  ⟨⟨⟨fun h => Bool.noConfusion h, fun h => Bool.noConfusion h, fun h => Bool.noConfusion h⟩, rfl⟩,
    ⟨⟨fun _ => rfl, fun _ => test_genSbox.symm, fun _ => test_invSbox.symm⟩, rfl, rfl⟩⟩

theorem witness_NopCompletes : State.reset.status.busy = false := rfl
theorem witness_GenTablesGeneratesBothTables : TablesOk State.reset ∧ State.reset.status.busy = false :=
  witness_tables.1
theorem witness_SboxLookupResult : TablesOk State.reset ∧ State.reset.status.busy = false := witness_tables.1
theorem witness_InvSboxLookupResult : TablesOk State.reset ∧ State.reset.status.busy = false := witness_tables.1
theorem witness_GfMulResult :
    (0x00 : Byte) ∈ [0x00, 0x01, 0x02, 0x03, 0x09, 0x0B, 0x0D, 0x0E] ∧
    (0x0E : Byte) ∈ [0x00, 0x01, 0x02, 0x03, 0x09, 0x0B, 0x0D, 0x0E] ∧ State.reset.status.busy = false := by decide
theorem witness_LoadStateResult : State.reset.status.busy = false := rfl
theorem witness_UnloadStateResult : State.reset.status.busy = false := rfl
theorem witness_SubBytesResult : TablesOk readyState ∧ readyState.status.busy = false :=
  ⟨witness_tables.2.1, rfl⟩
theorem witness_InvSubBytesResult : TablesOk readyState ∧ readyState.status.busy = false :=
  ⟨witness_tables.2.1, rfl⟩
theorem witness_ShiftRowsResult :
    State.reset.status.busy = false ∧ ∃ r c c' : Fin 4, r = 3 ∧ c = 3 ∧ c'.val = (c.val + r.val) % 4 :=
  ⟨rfl, 3, 3, 2, rfl, rfl, rfl⟩
theorem witness_InvShiftRowsResult :
    State.reset.status.busy = false ∧ ∃ r c c' : Fin 4, r = 3 ∧ c = 0 ∧ c'.val = (c.val + 4 - r.val) % 4 :=
  ⟨rfl, 3, 0, 1, rfl, rfl, rfl⟩
theorem witness_MixColumnsResult : State.reset.status.busy = false := rfl
theorem witness_InvMixColumnsResult : State.reset.status.busy = false := rfl
theorem witness_AddRoundKeyResult :
    (0 : BitVec 4).toNat ≤ 14 ∧ (14 : BitVec 4).toNat ≤ 14 ∧ readyState.status.keyValid = true ∧
    readyState.status.busy = false ∧ (∃ (c : Fin 4) (i : Fin 60), i.val = 4 * (14 : BitVec 4).toNat + c.val ∧ i = 59) :=
  ⟨by decide, by decide, rfl, rfl, 3, 59, by decide, rfl⟩
theorem witness_ExpandKeyResult : TablesOk State.reset ∧ State.reset.status.busy = false := witness_tables.1
theorem witness_EncryptBlockResult :
    TablesOk readyState ∧ readyState.status.busy = false ∧ readyState.status.keyValid = true := witness_tables.2
theorem witness_DecryptBlockResult :
    TablesOk readyState ∧ readyState.status.busy = false ∧ readyState.status.keyValid = true := witness_tables.2
theorem witness_MachineDecryptsWhatItEncrypts :
    TablesOk readyState ∧ readyState.status.busy = false ∧ readyState.status.keyValid = true := witness_tables.2

theorem witness_FieldLaws : (0x53 : Byte) ≠ 0 := by decide
theorem witness_SboxIsAffineOfTheInverse : fmul 0x53 0xCA = 1 := by decide

/-- An index for each branch of the recurrence, among them the first and the last. -/
theorem witness_ScheduleRecurrence :
    (∃ (k : Fin 8) (i : Fin 60), i.val = k.val ∧ k = 7) ∧
    (∃ (i p q : Fin 60) (j : Fin 10), 8 ≤ i.val ∧ p.val = i.val - 1 ∧ q.val = i.val - 8 ∧ i.val % 8 = 0 ∧
      j.val = i.val / 8 - 1 ∧ i = 8) ∧
    (∃ (i p q : Fin 60) (j : Fin 10), 8 ≤ i.val ∧ p.val = i.val - 1 ∧ q.val = i.val - 8 ∧ i.val % 8 = 0 ∧
      j.val = i.val / 8 - 1 ∧ i = 56) ∧
    (∃ i p q : Fin 60, 8 ≤ i.val ∧ p.val = i.val - 1 ∧ q.val = i.val - 8 ∧ i.val % 8 ≠ 0 ∧ i.val % 4 = 0 ∧ i = 12) ∧
    (∃ i p q : Fin 60, 8 ≤ i.val ∧ p.val = i.val - 1 ∧ q.val = i.val - 8 ∧ i.val % 8 ≠ 0 ∧ i.val % 4 ≠ 0 ∧ i = 59) :=
  ⟨⟨7, 7, rfl, rfl⟩, ⟨8, 7, 0, 0, by decide⟩, ⟨56, 55, 48, 6, by decide⟩, ⟨12, 11, 4, by decide⟩,
    ⟨59, 58, 51, by decide⟩⟩

theorem witness_EngineInvariantKept :
    (∃ s t : State, EngineInv s ∧ step s = .next t) ∧ ∃ s t : State, EngineInv s ∧ s.queue ≠ [] ∧ step s = .next t :=
  ⟨⟨_, _, engineInv_hostState (.wait []), rfl⟩,
    ⟨_, _, engineInv_busyHostState (.wait []), List.cons_ne_nil _ _, rfl⟩⟩

/-- A queue without a KEXP, and W the schedule of a key. -/
theorem scheduleInv_of {s : State} (hq : ∀ m ∈ s.queue, ∀ i, m.op ≠ .kexp i) (hw : ∃ key, s.w = expandKey key) :
    ScheduleInv s where
  valid := fun _ => hw
  shape := fun m hm h => absurd h.choose_spec (hq m hm _)
  partial_schedule := by
    intro j hj h
    have hk : kexpFrom j = plainStep (.kexp ⟨j, hj⟩) :: kexpFrom (j + 1) := by
      unfold kexpFrom
      rw [List.drop_eq_getElem_cons (by simpa [expandKeyBody] using hj)]
      simp [expandKeyBody]
    exact absurd rfl (hq (plainStep (.kexp ⟨j, hj⟩)) (by rw [h, hk]; exact List.mem_cons_self ..) ⟨j, hj⟩)
  before_generation := by
    intro h
    exact absurd rfl (hq (plainStep (.kexp 0)) (by rw [h]; exact List.mem_cons_of_mem _ (List.mem_cons_self ..)) 0)

/-- From a state with a valid schedule. -/
theorem witness_ScheduleInvariantKept :
    ∃ s t : State, EngineInv s ∧ ScheduleInv s ∧ s.status.keyValid = true ∧ step s = .next t :=
  ⟨{ hostState (.wait []) with
      w := expandKey (Vector.replicate 8 0)
      status := { State.reset.status with keyValid := true } }, _,
    { busy_iff := by simp [hostState, State.reset]
      idle_phase := fun _ => rfl
      running := fun h => Bool.noConfusion h
      err_recorded := fun h => absurd rfl h
      never_uninitialized := fun h => ErrorCode.noConfusion h
      tables := ⟨fun h => Bool.noConfusion h, fun h => Bool.noConfusion h, fun h => Bool.noConfusion h⟩
      ready := rfl
      multiplier := by intro h; exact absurd h (by decide) },
    scheduleInv_of (by intro m hm; cases hm) ⟨_, rfl⟩, rfl, rfl⟩

theorem witness_ResultStaysAByte :
    ∃ s t : State, ResultIsByte s ∧ step s = .next t :=
  ⟨hostState (.wait []), _, by unfold ResultIsByte; decide, rfl⟩

end Sys2Proof.Machine
end

/-! SUPPORT. `pack` and `byteOf` undo each other (00_scope.md R17). Byte k of a word is the slice of 8 bits from
bit 8 * (3 - k), so each fact is one about slices of the four bytes side by side. -/

namespace Sys2Proof.Machine

theorem byteOf_eq_extractLsb' (w : Word) (k : Fin 4) : byteOf w k = w.extractLsb' (8 * (3 - k.val)) 8 :=
  BitVec.setWidth_ushiftRight_eq_extractLsb

theorem byteOf_eq_extractLsb_ushiftRight (w : Word) (k : Fin 4) :
    byteOf w k = (w >>> (8 * (3 - k.val))).extractLsb 7 0 :=
  BitVec.setWidth_eq_extractLsb' (by decide)

theorem byteOf_zero_eq_extractLsb (w : Word) : byteOf w 0 = w.extractLsb 31 24 :=
  byteOf_eq_extractLsb' w 0

theorem byteOf_three_eq_extractLsb (w : Word) : byteOf w 3 = w.extractLsb 7 0 :=
  byteOf_eq_extractLsb' w 3

section
variable (b0 b1 b2 b3 : Byte)

@[simp] theorem byteOf_pack_zero : byteOf (pack b0 b1 b2 b3) 0 = b0 := calc
  byteOf (pack b0 b1 b2 b3) 0
    = (b0 ++ b1 ++ b2 ++ b3).extractLsb' 24 8 := byteOf_eq_extractLsb' _ 0
  _ = (b0 ++ b1 ++ b2).extractLsb' 16 8 := BitVec.extractLsb'_append_eq_of_le (by decide)
  _ = (b0 ++ b1).extractLsb' 8 8 := BitVec.extractLsb'_append_eq_of_le (by decide)
  _ = b0 := BitVec.extractLsb'_append_eq_left

@[simp] theorem byteOf_pack_one : byteOf (pack b0 b1 b2 b3) 1 = b1 := calc
  byteOf (pack b0 b1 b2 b3) 1
    = (b0 ++ b1 ++ b2 ++ b3).extractLsb' 16 8 := byteOf_eq_extractLsb' _ 1
  _ = (b0 ++ b1 ++ b2).extractLsb' 8 8 := BitVec.extractLsb'_append_eq_of_le (by decide)
  _ = (b0 ++ b1).extractLsb' 0 8 := BitVec.extractLsb'_append_eq_of_le (by decide)
  _ = b1 := BitVec.extractLsb'_append_eq_right

@[simp] theorem byteOf_pack_two : byteOf (pack b0 b1 b2 b3) 2 = b2 := calc
  byteOf (pack b0 b1 b2 b3) 2
    = (b0 ++ b1 ++ b2 ++ b3).extractLsb' 8 8 := byteOf_eq_extractLsb' _ 2
  _ = (b0 ++ b1 ++ b2).extractLsb' 0 8 := BitVec.extractLsb'_append_eq_of_le (by decide)
  _ = b2 := BitVec.extractLsb'_append_eq_right

@[simp] theorem byteOf_pack_three : byteOf (pack b0 b1 b2 b3) 3 = b3 := calc
  byteOf (pack b0 b1 b2 b3) 3
    = (b0 ++ b1 ++ b2 ++ b3).extractLsb' 0 8 := byteOf_eq_extractLsb' _ 3
  _ = b3 := BitVec.extractLsb'_append_eq_right

end

/-- Adjacent slices join, from the most significant byte down. -/
@[simp] theorem pack_byteOf (w : Word) : pack (byteOf w 0) (byteOf w 1) (byteOf w 2) (byteOf w 3) = w := calc
  pack (byteOf w 0) (byteOf w 1) (byteOf w 2) (byteOf w 3)
    = w.extractLsb' 24 8 ++ w.extractLsb' 16 8 ++ w.extractLsb' 8 8 ++ w.extractLsb' 0 8 := by
      simp only [pack, byteOf_eq_extractLsb']
      rfl
  _ = w.extractLsb' 16 16 ++ w.extractLsb' 8 8 ++ w.extractLsb' 0 8 :=
      congrArg (· ++ w.extractLsb' 8 8 ++ w.extractLsb' 0 8) (BitVec.extractLsb'_append_extractLsb'_eq_extractLsb' rfl)
  _ = w.extractLsb' 8 24 ++ w.extractLsb' 0 8 :=
      congrArg (· ++ w.extractLsb' 0 8) (BitVec.extractLsb'_append_extractLsb'_eq_extractLsb' rfl)
  _ = w := BitVec.extractLsb'_append_extractLsb'

/-- Settles O6: the bits 31:24 and 7:0 of a packed word are its bytes 0 and 3. -/
theorem packAndByteAreInverse : Obligations.PackAndByteAreInverse := by
  refine ⟨fun b0 b1 b2 b3 => ?_, byteOf_eq_extractLsb_ushiftRight,
    fun w => ⟨byteOf_zero_eq_extractLsb w, pack_byteOf w⟩⟩
  have hi : (pack b0 b1 b2 b3).extractLsb 31 24 = b0 :=
    (byteOf_zero_eq_extractLsb _).symm.trans (byteOf_pack_zero b0 b1 b2 b3)
  have lo : (pack b0 b1 b2 b3).extractLsb 7 0 = b3 :=
    (byteOf_three_eq_extractLsb _).symm.trans (byteOf_pack_three b0 b1 b2 b3)
  exact ⟨rfl, hi, lo, byteOf_pack_zero .., byteOf_pack_one .., byteOf_pack_two .., byteOf_pack_three ..⟩

end Sys2Proof.Machine

/-! SUPPORT. What a step of the machine can do, said once: the presentation of a command as its acceptance check and its
body (43_driver.md R220 to R223), and the effects a host operation can have (20_memory.md R64 to R73). -/

namespace Sys2Proof.Machine

/-! ## The presentation of a command -/

/-- The bytes that name a multiplier constant, listed (40_gf_sbox.md R124). -/
theorem multiplierCheck_eq (c : Byte) : multiplierCheck c =
    if c ∈ [0x00, 0x01, 0x02, 0x03, 0x09, 0x0B, 0x0D, 0x0E] then none else some .contractViolation := by
  revert c
  decide

theorem keyValidCheck_eq (s : State) :
    keyValidCheck s = if s.status.keyValid = false then some .invalidArgument else none := by
  unfold keyValidCheck
  cases s.status.keyValid <;> rfl

theorem roundKeyOf_eq_some {rnd : BitVec 4} (h : rnd.toNat ≤ 14) :
    roundKeyOf rnd = some (Fin.ofNat 15 rnd.toNat) := by
  have hn : (⟨rnd.toNat, by omega⟩ : Fin 15) = Fin.ofNat 15 rnd.toNat :=
    Fin.ext (Nat.mod_eq_of_lt (by omega)).symm
  rw [roundKeyOf, dif_pos h, hn]

/-- Every command is presented with its acceptance check and its body (R222, R223). -/
theorem exec_eq_presentCommand (i : Instr) (s : State) :
    exec i s = presentCommand i.fields (acceptanceError s i) (bodyOf i) s := by
  cases i with
  | gfMul x c => exact congrArg (presentCommand _ · _ s) (multiplierCheck_eq c)
  | encryptBlock => exact congrArg (presentCommand _ · _ s) (keyValidCheck_eq s)
  | decryptBlock => exact congrArg (presentCommand _ · _ s) (keyValidCheck_eq s)
  | addRoundKey rnd =>
    simp only [exec, execAddRoundKey, acceptanceError]
    by_cases hr : rnd.toNat ≤ 14
    · rw [roundKeyOf_eq_some hr, if_neg (by omega), keyValidCheck_eq]
      rfl
    · rw [roundKeyOf, dif_neg hr, if_pos (by omega)]
      rfl
  | _ => rfl

/-- The acceptance checks give two codes only (60_exceptions.md R261, R263). -/
theorem acceptanceError_code {s : State} {i : Instr} {e : ErrorCode} (h : acceptanceError s i = some e) :
    e = .invalidArgument ∨ e = .contractViolation := by
  cases i with
  | gfMul | addRoundKey | encryptBlock | decryptBlock =>
    simp only [acceptanceError] at h
    split_ifs at h <;> simp_all
  | _ => cases h

/-! ## The window's registers by offset -/

theorem regAt_key_lt {off : Nat} {k : Fin 8} (h : regAt off = some (.key k)) : off < 0x030 := by
  unfold regAt at h
  grind

theorem regAt_din_lt {off : Nat} {k : Fin 4} (h : regAt off = some (.din k)) : off < 0x030 := by
  unfold regAt at h
  grind

theorem regAt_eq_cmd {off : Nat} (h : regAt off = some .cmd) : off = 0x040 := by
  unfold regAt at h
  grind

theorem accessOffset_ok {s : State} {addr bytes off : Nat} (h : accessOffset s addr bytes = .ok off) :
    addr = base s + off ∧ bytes = 4 := by
  unfold accessOffset Config.accessBytes at h
  grind

/-! ## The effects of a step -/

/-- What the host operation `op` can make of the state `s` it is performed in. -/
inductive HostEffect (s : State) : HostOp → State → Prop where
  /-- A read, a poll or a write without effect: nothing of the core changes (20_memory.md R63, R66, R71). -/
  | observes (op : HostOp) (h : List HostEvent) (log : List (Nat × Word)) (d : Nat) :
      HostEffect s op { s with host := h, readLog := log, draw := d }
  /-- A write while BUSY = 1 (R72). -/
  | drops (op : HostOp) (hbusy : s.status.busy = true) : HostEffect s op (dropWrite s)
  | setsKey (off : Nat) (v : Word) (k : Fin 8) (hidle : s.status.busy = false) (hoff : off < 0x030) :
      HostEffect s (.write (base s + off) 4 v) (setKey k v s)
  | setsDin (off : Nat) (v : Word) (k : Fin 4) (hidle : s.status.busy = false) (hoff : off < 0x030) :
      HostEffect s (.write (base s + off) 4 v) (setDin k v s)
  /-- A command word rejected with the code `e`, never 2 (60_exceptions.md R262, R266). -/
  | rejects (op : HostOp) (e : ErrorCode) (o : BitVec 5) (hidle : s.status.busy = false)
      (hcode : e ≠ .uninitializedState) : HostEffect s op (cmdError e o s)
  /-- A command accepted (43_driver.md R222). -/
  | accepts (op : HostOp) (i : Instr) (hidle : s.status.busy = false) (hcheck : acceptanceError s i = none) :
      HostEffect s op (accept i.fields (bodyOf i) s)
  | resets : HostEffect s .reset (resetCore s)

theorem hostEffect_regRead (op : HostOp) (a : Nat) (r : Option Reg) (s : State) :
    HostEffect s op (regRead a r s) := by
  unfold regRead
  split
  · exact .observes op _ _ _
  · exact .observes op _ _ _

theorem hostEffect_regWrite {s : State} {off : Nat} (v : Word) :
    HostEffect s (.write (base s + off) 4 v) (regWrite (regAt off) v s) := by
  cases hr : regAt off with
  | none => exact .observes _ _ _ _
  | some r =>
    cases hb : s.status.busy with
    | true =>
      cases r with
      | key k => simpa [regWrite, hb] using .drops _ hb
      | din k => simpa [regWrite, hb] using .drops _ hb
      | _ => exact .observes _ _ _ _
    | false =>
      cases r with
      | key k => simpa [regWrite, hb] using .setsKey off v k hb (regAt_key_lt hr)
      | din k => simpa [regWrite, hb] using .setsDin off v k hb (regAt_din_lt hr)
      | _ => exact .observes _ _ _ _

theorem hostEffect_waitTurn (op : HostOp) (gaps : List Nat) (s : State) : HostEffect s op (waitTurn gaps s) := by
  cases hb : s.status.busy with
  | false =>
    rw [waitTurn_idle gaps hb, pollStatus_eq]
    exact .observes op _ _ _
  | true =>
    cases gaps with
    | nil =>
      rw [waitTurn_busy_last hb, pollStatus_eq]
      exact .observes op _ _ _
    | cons g gs =>
      rw [waitTurn_busy_gap g gs hb, pollStatus_eq]
      exact .observes op _ _ _

theorem hostEffect_of_hostTurn {op : HostOp} {s t : State} (h : hostTurn op s = .next t) : HostEffect s op t := by
  cases op with
  | read addr bytes =>
    simp only [hostTurn, memRead] at h
    split at h
    · cases h
    · cases h
      exact hostEffect_regRead _ _ _ s
  | write addr bytes v =>
    simp only [hostTurn, memWrite] at h
    split at h
    · cases h
    · next off ho =>
      cases h
      obtain ⟨rfl, rfl⟩ := accessOffset_ok ho
      exact hostEffect_regWrite v
  | wait gaps =>
    cases h
    exact hostEffect_waitTurn _ gaps s
  | check =>
    simp only [hostTurn, checkTurn] at h
    split at h
    · cases h
      exact hostEffect_regRead _ _ _ s
    · cases h
  | reset =>
    cases h
    exact .resets

theorem hostEffect_of_exec (op : HostOp) {i : Instr} {s t : State} (h : exec i s = .next t) : HostEffect s op t := by
  rw [exec_eq_presentCommand] at h
  rcases presentCommand_cases h with ⟨hb, rfl⟩ | ⟨hb, e, he, rfl⟩ | ⟨hb, hc, rfl⟩
  · exact .drops op hb
  · rcases acceptanceError_code he with rfl | rfl
    · exact .rejects op _ _ hb (by decide)
    · exact .rejects op _ _ hb (by decide)
  · exact .accepts op i hb hc

theorem hostEffect_presentIllegal (op : HostOp) (w : Word) (s : State) : HostEffect s op (presentIllegal w s) := by
  unfold presentIllegal
  split
  · next hb => exact .drops op hb
  · next hb => exact .rejects op _ _ (by simpa using hb) (by decide)

/-- All that a step which answers a next state can do (43_driver.md R225). -/
inductive StepEffect (s : State) : State → Prop where
  | idle : StepEffect s s
  /-- The engine moves; at most the delay of the next host operation has changed before. -/
  | engine (h : List HostEvent) (hq : s.queue ≠ []) : StepEffect s (engineStep (setHost h s))
  | host {op : HostOp} {rest : List HostEvent} {t : State} (hop : NextOp s op rest)
      (heff : HostEffect (setHost rest s) op t) : StepEffect s t

theorem stepEffect_of_step {s t : State} (h : step s = .next t) : StepEffect s t := by
  rcases step_cases s with ⟨-, -, hs⟩ | ⟨-, hq, hs⟩ | ⟨d, op, rest, -, hq, hs⟩ | ⟨d, op, rest, hh, hd, hs⟩
  · cases hs.symm.trans h
    exact .idle
  · cases hs.symm.trans h
    exact .engine s.host hq
  · cases hs.symm.trans h
    exact .engine _ hq
  · refine .host ⟨d, hh, hd⟩ ?_
    rcases hs with ⟨-, hs⟩ | ⟨w, i, -, -, hs⟩ | ⟨w, e, -, -, hs⟩
    · exact hostEffect_of_hostTurn (hs.symm.trans h)
    · exact hostEffect_of_exec op (hs.symm.trans h)
    · cases hs.symm.trans h
      exact hostEffect_presentIllegal op w _

end Sys2Proof.Machine

/-! SUPPORT. A step of the engine: what each micro-step writes (43_driver.md R224), and the completion. -/

namespace Sys2Proof.Machine

/-- The end of a micro-step, as one record: the rest of Q, and the completion if nothing is left (R227). -/
theorem finishStep_eq (rest : List MicroStep) (s : State) :
    finishStep rest s =
      { s with
        queue := rest
        status := { s.status with
          busy := s.status.busy && !rest.isEmpty, done := s.status.done || rest.isEmpty }
        fsm := { s.fsm with phase := if rest.isEmpty then .idle else s.fsm.phase } } := by
  cases rest <;> simp [finishStep, complete, setPhase, setQueue, onStatus, statusCompleted]

/-- The defensive stop, as one record (R229). -/
theorem defensiveStop_eq (s : State) :
    defensiveStop s =
      { s with
        queue := []
        status := { s.status with err := .uninitializedState, errSticky := true, done := true, busy := false }
        fsm := { s.fsm with phase := .idle } } := rfl

theorem readsInverse_iff (m : MicroOp) (s : State) :
    readsInverse m s = true ↔ m = .isb ∨ (m = .prim ∧ s.latch.op = 0x06) := by
  cases m <;> simp [readsInverse, opInvSboxLookup]

/-- A step of the engine with a micro-step in Q is the defensive stop or performs the micro-step. -/
theorem engineStep_cases {s : State} {m : MicroStep} {rest : List MicroStep} (h : s.queue = m :: rest) :
    engineStep s = defensiveStop s ∨ engineStep s = finishStep rest (perform m.op (showStep m s)) := by
  cases hr : readsInverse m.op s with
  | false => exact .inr (engineStep_performs h (.inl hr))
  | true =>
    cases hv : s.status.invValid with
    | false => exact .inl (engineStep_stops h hr hv)
    | true => exact .inr (engineStep_performs h (.inr hv))

/-- Which micro-step writes which piece of data (10_state.md R24 to R28, R39). -/
theorem perform_data_frame (m : MicroOp) (s : State) :
    (m ≠ .unload → (perform m s).dout = s.dout) ∧
    ((∀ i, m ≠ .kexp i) → (perform m s).w = s.w ∧ (perform m s).status.keyValid = s.status.keyValid) ∧
    (m ≠ .genFwd → (perform m s).sbox = s.sbox ∧ (perform m s).status.sboxValid = s.status.sboxValid) ∧
    (m ≠ .genInv → (perform m s).invSbox = s.invSbox ∧ (perform m s).status.invValid = s.status.invValid) ∧
    (m ≠ .prim → (perform m s).result = s.result) ∧
    ((m = .genFwd ∨ m = .genInv ∨ m = .unload ∨ m = .prim ∨ ∃ i, m = .kexp i) → (perform m s).mat = s.mat) := by
  cases m <;>
    simp [perform, stepGenFwd, stepGenInv, stepLoad, stepArk, stepSb, stepSr, stepMc, stepIsb, stepIsr, stepImc,
      stepUnload, statusSboxValid, statusInvValid]

/-- Only KEXP changes FSM.KIDX (10_state.md R40). -/
theorem perform_kidx (m : MicroOp) (s : State) (h : ∀ i, m ≠ .kexp i) : (perform m s).fsm.kidx = s.fsm.kidx := by
  cases m with
  | kexp i => exact absurd rfl (h i)
  | _ => simp [perform, stepGenFwd, stepGenInv, stepLoad, stepArk, stepSb, stepSr, stepMc, stepIsb, stepIsr, stepImc,
      stepUnload]

theorem phaseRow_eq (m : MicroOp) : phaseRow m = phaseOf m := by
  cases m <;> rfl

/-- Settles O13: the defensive stop writes no data, and a micro-step performed writes what `perform` writes. -/
theorem microStepFrame : Obligations.MicroStepFrame := by
  intro s m rest hq
  rcases engineStep_cases hq with h | h
  · simp [h, defensiveStop_eq]
  · obtain ⟨hkey, hdin, hlatch, -, hbase, hhost, hlog, hdraw, -, -, -, -, hovr, -⟩ :=
      perform_frame m.op (showStep m s)
    have hdata := perform_data_frame m.op (showStep m s)
    rw [h, finishStep_eq]
    rw [showStep_fsm] at *
    exact ⟨hkey, hdin, hlatch, hovr, hbase, hhost, hlog, hdraw, hdata⟩

/-- Settles O11: the micro-step is shown, performed, and taken from Q. -/
theorem engineStepShowsAndCompletes : Obligations.EngineStepShowsAndCompletes := by
  intro s m rest hq hstop
  have hr : readsInverse m.op s = false ∨ s.status.invValid = true := by
    rw [← readsInverse_iff] at hstop
    cases hv : s.status.invValid with
    | true => exact .inr rfl
    | false => exact .inl (by simpa [hv] using hstop)
  obtain ⟨-, -, -, -, -, -, -, -, hbusy, hdone, herr, -, -, hop, hphase, hround⟩ :=
    perform_frame m.op (showStep m s)
  have hkexp : ∀ i, m.op = .kexp i → (perform m.op (showStep m s)).fsm.kidx = BitVec.ofNat 6 i.val := by
    intro i hi
    simp [hi, perform]
  have hkidx := perform_kidx m.op (showStep m s)
  rw [engineStep_performs hq hr, finishStep_eq]
  rw [showStep_fsm] at *
  refine ⟨rfl, hround, hkexp, hkidx, hop, herr, fun hrest => ?_, fun hrest => ?_⟩
  · simp [hrest, hbusy, hdone, hphase, phaseRow_eq]
  · simp [hrest]

end Sys2Proof.Machine

/-! SUPPORT. What accepting a command leaves unchanged, and the two frames of a step: KEY and DIN (10_state.md R22, R23),
and RESULT[31:8] (R39). -/

namespace Sys2Proof.Machine

/-- Acceptance writes STATUS, FSM, the latched fields and Q only (43_driver.md R222). -/
theorem accept_frame (f : CmdFields) (body : List MicroStep) (s : State) :
    ∃ st fsm q, accept f body s = { s with status := st, fsm := fsm, latch := f, queue := q } := by
  rw [accept_eq]
  cases genPrefix f.op s.status ++ body <;> exact ⟨_, _, _, rfl⟩

/-- The engine never changes KEY and DIN, whatever Q holds. -/
theorem engineStep_key_din (s : State) : (engineStep s).key = s.key ∧ (engineStep s).din = s.din := by
  cases hq : s.queue with
  | nil => simp [engineStep_idle hq]
  | cons m rest =>
    obtain ⟨hkey, hdin, -⟩ := microStepFrame s m rest hq
    exact ⟨hkey, hdin⟩

/-- Settles O23: of the effects of a step, only the two writes below 0x030 and the reset reach KEY or DIN. -/
theorem onlyTheHostChangesKeyAndDin : Obligations.OnlyTheHostChangesKeyAndDin := by
  intro s t hstep hne
  cases stepEffect_of_step hstep with
  | idle => simp at hne
  | engine h hq =>
    obtain ⟨hkey, hdin⟩ := engineStep_key_din (setHost h s)
    exact absurd hne (by simp [hkey, hdin])
  | host hop heff =>
    refine ⟨_, _, hop, ?_⟩
    cases heff with
    | observes => simp at hne
    | drops => simp [dropWrite] at hne
    | setsKey off v k hidle hoff => exact .inr ⟨hidle, off, v, hoff, rfl⟩
    | setsDin off v k hidle hoff => exact .inr ⟨hidle, off, v, hoff, rfl⟩
    | rejects => simp [cmdError] at hne
    | accepts op i hidle hcheck =>
      obtain ⟨st, fsm, q, ht⟩ := accept_frame i.fields (bodyOf i) (setHost _ s)
      rw [ht] at hne
      simp at hne
    | resets => exact .inl rfl

/-! ## RESULT -/

theorem zextByte_upper (b : Byte) : (zextByte b).extractLsb' 8 24 = 0 := by
  apply BitVec.eq_of_getLsbD_eq
  intro i hi
  simp [zextByte]

theorem resultIsByte_of_zero {s : State} (h : s.result = 0) : ResultIsByte s := by
  unfold ResultIsByte
  rw [h]
  rfl

/-- PRIM writes a byte or nothing (40_gf_sbox.md R128, R143, R144). -/
theorem resultIsByte_stepPrim {s : State} (h : ResultIsByte s) : ResultIsByte (stepPrim s) := by
  unfold stepPrim
  split_ifs
  case pos => exact h
  case pos => exact zextByte_upper _
  case pos => exact zextByte_upper _
  case pos =>
    unfold primGfMul
    split
    · exact zextByte_upper _
    · exact h
  case neg => exact h

theorem resultIsByte_engineStep {s : State} (h : ResultIsByte s) : ResultIsByte (engineStep s) := by
  cases hq : s.queue with
  | nil => rwa [engineStep_idle hq]
  | cons m rest =>
    rcases engineStep_cases hq with he | he
    · rwa [he, defensiveStop_eq]
    · rw [he, finishStep_eq, showStep_fsm]
      by_cases hm : m.op = .prim
      · rw [hm]
        exact resultIsByte_stepPrim h
      · obtain ⟨-, -, -, -, hres, -⟩ := perform_data_frame m.op (showStep m s)
        rw [showStep_fsm] at hres
        exact (congrArg (BitVec.extractLsb' 8 24) (hres hm)).trans h

/-- Settles O60: a step writes RESULT by PRIM or by reset. -/
theorem resultStaysAByte : Obligations.ResultStaysAByte := by
  refine ⟨resultIsByte_of_zero rfl, fun s t hs hstep => ?_⟩
  cases stepEffect_of_step hstep with
  | idle => exact hs
  | engine h hq => exact resultIsByte_engineStep hs
  | host hop heff =>
    cases heff with
    | accepts op i =>
      obtain ⟨st, fsm, q, ht⟩ := accept_frame i.fields (bodyOf i) (setHost _ s)
      rwa [ht]
    | resets => exact resultIsByte_of_zero rfl
    | _ => exact hs

end Sys2Proof.Machine

/-! SUPPORT. The engine's invariant (10_state.md R44, R46): what depends on it, the tables, and the queue of an accepted
command. -/

namespace Sys2Proof.Machine

/-! ## The generated tables -/

/-- The forward table has no repeated entry (40_gf_sbox.md R135). -/
theorem genSbox_nodup : genSbox.toList.Nodup := by decide +kernel

theorem look_genSbox_injective : Function.Injective (look genSbox) := by
  intro x y h
  have hx : x.toNat < genSbox.toList.length := by simpa using x.isLt
  have hy : y.toNat < genSbox.toList.length := by simpa using y.isLt
  exact BitVec.eq_of_toNat_eq ((genSbox_nodup.getElem_inj_iff (hi := hx) (hj := hy)).mp (by simpa [look] using h))

theorem look_genSbox_surjective : Function.Surjective (look genSbox) := by
  have : Finite Byte := Finite.of_equiv _ (BitVec.equivFin (m := 8)).symm.toEquiv
  exact Finite.surjective_of_injective look_genSbox_injective

/-- GEN_INV after GEN_FWD gives the inverse table, whatever INV_SBOX held (R139). -/
theorem genInv_genSbox (i : Table) : genInv genSbox i = invSboxTable :=
  genInv_base look_genSbox_injective look_genSbox_surjective _ _

/-! ## States the invariants do not tell apart -/

/-- The engine's invariant does not see KEY, DIN, OVR and the host's fields. -/
theorem EngineInv.congr {s t : State} (h : EngineInv s)
    (ht : t = { s with
      key := t.key, din := t.din, host := t.host, readLog := t.readLog, draw := t.draw
      status := { s.status with ovr := t.status.ovr } }) : EngineInv t := by
  rw [ht]
  exact ⟨h.busy_iff, h.idle_phase, h.running, h.err_recorded, h.never_uninitialized,
    ⟨h.tables.inv_needs_sbox, h.tables.sbox_content, h.tables.inv_content⟩, h.ready, h.multiplier⟩

/-- The engine's invariant in a state with nothing to do and both tables invalid. -/
theorem engineInv_of_reset {s : State} (hstatus : s.status = State.reset.status) (hfsm : s.fsm = State.reset.fsm)
    (hqueue : s.queue = []) (hlatch : s.latch = State.reset.latch) : EngineInv s where
  busy_iff := by simp [hstatus, hqueue, State.reset]
  idle_phase := by simp [hfsm, State.reset]
  running := by simp [hstatus, State.reset]
  err_recorded := by simp [hstatus, State.reset]
  never_uninitialized := by simp [hstatus, State.reset]
  tables := by constructor <;> simp [hstatus, State.reset]
  ready := by simp [hqueue, tablesReady]
  multiplier := by simp [hlatch, State.reset, opGfMul]

/-! ## Rejection and acceptance -/

/-- A rejection while BUSY = 0 with a code other than 2 (60_exceptions.md R262, R266). -/
theorem engineInv_cmdError {s : State} {e : ErrorCode} (o : BitVec 5) (h : EngineInv s)
    (hidle : s.status.busy = false) (hcode : e ≠ .uninitializedState) : EngineInv (cmdError e o s) where
  busy_iff := h.busy_iff
  idle_phase := h.idle_phase
  running := fun hb => Bool.noConfusion (hb.symm.trans hidle)
  err_recorded := fun _ => ⟨rfl, rfl⟩
  never_uninitialized := hcode
  tables := ⟨h.tables.inv_needs_sbox, h.tables.sbox_content, h.tables.inv_content⟩
  ready := h.ready
  multiplier := h.multiplier

theorem tablesReady_genFwd_append (op : BitVec 5) (sv iv need : Bool) (q : List MicroStep) :
    tablesReady op sv iv ((if need && !sv then [plainStep .genFwd] else []) ++ q) =
      tablesReady op (sv || need) iv q := by
  cases sv <;> cases need <;> rfl

theorem tablesReady_genInv_append (op : BitVec 5) {sv need : Bool} (iv : Bool) (q : List MicroStep)
    (hs : need = true → sv = true) :
    tablesReady op sv iv ((if need && !iv then [plainStep .genInv] else []) ++ q) =
      tablesReady op sv (iv || need) q := by
  cases need with
  | false => simp
  | true =>
    obtain rfl := hs rfl
    cases iv <;> rfl

/-- The table generation in front of a queue makes valid what the opcode needs (43_driver.md R226). -/
theorem tablesReady_genPrefix_append (op lop : BitVec 5) (t : Status) (q : List MicroStep) :
    tablesReady lop t.sboxValid t.invValid (genPrefix op t ++ q) =
      tablesReady lop (t.sboxValid || (needsFwd op || needsInv op)) (t.invValid || needsInv op) q := by
  unfold genPrefix
  rw [List.append_assoc, tablesReady_genFwd_append, tablesReady_genInv_append]
  intro h
  simp [h]

/-- The body of a command reads only the tables its opcode needs (R226). -/
theorem tablesReady_bodyOf (i : Instr) {sv iv : Bool} (hs : (needsFwd i.fields.op || needsInv i.fields.op) → sv)
    (hi : needsInv i.fields.op → iv) : tablesReady i.fields.op sv iv (bodyOf i) = true := by
  cases i with
  | expandKey | encryptBlock | sboxLookup x | subBytes =>
    obtain rfl := hs rfl
    rfl
  | decryptBlock | invSboxLookup x | invSubBytes =>
    obtain rfl := hs rfl
    obtain rfl := hi rfl
    rfl
  | _ => rfl

/-- The queue of an accepted command finds every table it reads valid (R226). -/
theorem tablesReady_accept (i : Instr) (t : Status) :
    tablesReady i.fields.op t.sboxValid t.invValid (genPrefix i.fields.op t ++ bodyOf i) = true := by
  rw [tablesReady_genPrefix_append]
  exact tablesReady_bodyOf i (fun h => by rw [h, Bool.or_true]) (fun h => by rw [h, Bool.or_true])

/-- GF_MUL passes its check only with a constant of the set (40_gf_sbox.md R127). -/
theorem gfConstOf_isSome_of_accepted {i : Instr} {s : State} (hcheck : acceptanceError s i = none)
    (hop : i.fields.op = opGfMul) : (gfConstOf i.fields.c).isSome = true := by
  cases i with
  | gfMul x c =>
    have hc : multiplierCheck c = none := (multiplierCheck_eq c).trans hcheck
    show (gfConstOf c).isSome = true
    by_contra hn
    rw [multiplierCheck, if_neg hn] at hc
    cases hc
  | _ => cases hop

theorem engineInv_accept {s : State} {i : Instr} (h : EngineInv s)
    (hcheck : acceptanceError s i = none) : EngineInv (accept i.fields (bodyOf i) s) := by
  have htables := h.tables
  have hready := tablesReady_accept i s.status
  have hmul := gfConstOf_isSome_of_accepted hcheck
  by_cases hq : genPrefix i.fields.op s.status ++ bodyOf i = []
  · rw [accept_completes hq]
    exact
      { busy_iff := by simp
        idle_phase := fun _ => rfl
        running := fun hb => Bool.noConfusion hb
        err_recorded := fun he => absurd rfl he
        never_uninitialized := by simp
        tables := ⟨htables.inv_needs_sbox, htables.sbox_content, htables.inv_content⟩
        ready := rfl
        multiplier := hmul }
  · rw [accept_starts hq]
    exact
      { busy_iff := by simp [hq]
        idle_phase := fun hb => Bool.noConfusion hb
        running := fun _ => ⟨rfl, rfl⟩
        err_recorded := fun he => absurd rfl he
        never_uninitialized := by simp
        tables := ⟨htables.inv_needs_sbox, htables.sbox_content, htables.inv_content⟩
        ready := hready
        multiplier := hmul }

/-! ## A step of the engine -/

/-- A micro-step that reads INV_SBOX finds it valid (R226). -/
theorem invValid_of_readsInverse {s : State} {sv iv : Bool} {m : MicroStep} {rest : List MicroStep}
    (hready : tablesReady s.latch.op sv iv (m :: rest) = true) (hr : readsInverse m.op s = true) : iv = true := by
  rcases (readsInverse_iff m.op s).mp hr with hm | ⟨hm, hop⟩
  · simp_all [tablesReady]
  · simp_all [tablesReady, opInvSboxLookup, opSboxLookup]

/-- A micro-step that reads SBOX finds it valid (R226). -/
theorem sboxValid_of_reads {op : BitVec 5} {sv iv : Bool} {m : MicroStep} {rest : List MicroStep}
    (hready : tablesReady op sv iv (m :: rest) = true) (hm : m.op = .genInv ∨ ∃ i, m.op = .kexp i) : sv = true := by
  rcases hm with hm | ⟨i, hm⟩ <;> simp_all [tablesReady]

/-- The rest of a queue finds its tables valid in the state after the head micro-step. -/
theorem tablesReady_perform {s : State} {m : MicroStep} {rest : List MicroStep}
    (h : tablesReady s.latch.op s.status.sboxValid s.status.invValid (m :: rest) = true) :
    tablesReady s.latch.op (perform m.op s).status.sboxValid (perform m.op s).status.invValid rest = true := by
  obtain ⟨-, -, hfwd, hinv, -⟩ := perform_data_frame m.op s
  obtain ⟨op, r⟩ := m
  cases op with
  | genFwd => exact h
  | genInv => exact (Bool.and_eq_true_iff.mp h).2
  | _ =>
    rw [(hfwd (by simp)).2, (hinv (by simp)).2]
    simp only [tablesReady, Bool.and_eq_true] at h
    tauto

/-- A micro-step whose tables are ready keeps the tables as their flags say (10_state.md R44). -/
theorem tablesOk_perform {s : State} {m : MicroOp} (h : TablesOk s)
    (hgen : m = .genInv → s.status.sboxValid = true) : TablesOk (perform m s) := by
  obtain ⟨-, -, hfwd, hinv, -⟩ := perform_data_frame m s
  by_cases hf : m = .genFwd
  · obtain ⟨hinvSbox, hiv⟩ := hinv (by simp [hf])
    subst hf
    refine ⟨fun _ => rfl, fun _ => by simp [perform, stepGenFwd], ?_⟩
    rw [hiv, hinvSbox]
    exact h.inv_content
  obtain ⟨hsbox, hsv⟩ := hfwd hf
  by_cases hi : m = .genInv
  · have hs := hgen hi
    subst hi
    refine ⟨fun _ => hs, ?_, fun _ => by simp [perform, stepGenInv, h.sbox_content hs, genInv_genSbox]⟩
    rw [hsv, hsbox]
    exact h.sbox_content
  obtain ⟨hinvSbox, hiv⟩ := hinv hi
  constructor
  · rw [hsv, hiv]
    exact h.inv_needs_sbox
  · rw [hsv, hsbox]
    exact h.sbox_content
  · rw [hiv, hinvSbox]
    exact h.inv_content

/-- With the engine's invariant there is no defensive stop (R229, 60_exceptions.md R262). -/
theorem EngineInv.engineStep_eq {s : State} {m : MicroStep} {rest : List MicroStep} (h : EngineInv s)
    (hq : s.queue = m :: rest) : engineStep s = finishStep rest (perform m.op (showStep m s)) := by
  have hready := h.ready
  rw [hq] at hready
  apply engineStep_performs hq
  cases hr : readsInverse m.op s with
  | false => exact .inl rfl
  | true => exact .inr (invValid_of_readsInverse hready hr)

/-- FSM may show a micro-step while BUSY = 1. -/
theorem engineInv_showStep {s : State} (m : MicroStep) (h : EngineInv s) (hbusy : s.status.busy = true) :
    EngineInv (showStep m s) := by
  rw [showStep_fsm]
  exact
    { h with
      idle_phase := fun hidle => Bool.noConfusion (hidle.symm.trans hbusy)
      tables := ⟨h.tables.inv_needs_sbox, h.tables.sbox_content, h.tables.inv_content⟩ }

/-- Performing the head micro-step and taking it from Q keeps the invariant. -/
theorem engineInv_finishStep_perform {s : State} {m : MicroStep} {rest : List MicroStep} (h : EngineInv s)
    (hq : s.queue = m :: rest) : EngineInv (finishStep rest (perform m.op s)) := by
  have hready := h.ready
  rw [hq] at hready
  have htables := tablesOk_perform h.tables fun hm => sboxValid_of_reads hready (.inl hm)
  have hrest := tablesReady_perform hready
  have hbusy : s.status.busy = true := h.busy_iff.mpr (by simp [hq])
  obtain ⟨hdone, herr⟩ := h.running hbusy
  obtain ⟨-, -, hlatch, -, -, -, -, -, hb, hd, he, -⟩ := perform_frame m.op s
  rw [hbusy] at hb
  rw [hdone] at hd
  rw [herr] at he
  rw [finishStep_eq]
  exact
    { busy_iff := by simp [hb]
      idle_phase := fun hidle => if_pos (by simpa [hb] using hidle)
      running := by simp [hb, hd, he]
      err_recorded := fun hne => absurd he hne
      never_uninitialized := by simp [he]
      tables := ⟨htables.inv_needs_sbox, htables.sbox_content, htables.inv_content⟩
      ready := by rw [hlatch]; exact hrest
      multiplier := by rw [hlatch]; exact h.multiplier }

theorem engineInv_engineStep {s : State} (h : EngineInv s) : EngineInv (engineStep s) := by
  cases hq : s.queue with
  | nil => rwa [engineStep_idle hq]
  | cons m rest =>
    have hbusy : s.status.busy = true := h.busy_iff.mpr (by simp [hq])
    have hshow : (showStep m s).queue = m :: rest := by rw [showStep_fsm]; exact hq
    rw [h.engineStep_eq hq]
    exact engineInv_finishStep_perform (engineInv_showStep m h hbusy) hshow

/-- Settles O58: the engine and each effect of a host operation keep the invariant. -/
theorem engineInvariantKept : Obligations.EngineInvariantKept := by
  intro s t hs hstep
  cases stepEffect_of_step hstep with
  | idle => exact hs
  | engine h hq => exact engineInv_engineStep (hs.congr rfl)
  | @host op rest _ hop heff =>
    have hs' : EngineInv (setHost rest s) := hs.congr rfl
    cases heff with
    | observes => exact hs'.congr rfl
    | drops => exact hs'.congr rfl
    | setsKey => exact hs'.congr rfl
    | setsDin => exact hs'.congr rfl
    | rejects _ e o hidle hcode => exact engineInv_cmdError o hs' hidle hcode
    | accepts _ i hidle hcheck => exact engineInv_accept hs' hcheck
    | resets => exact engineInv_of_reset rfl rfl rfl rfl

end Sys2Proof.Machine

/-! SUPPORT. The key schedule, word by word (41_key_schedule.md R165 to R168), and the schedule's invariant (10_state.md
R33, R45). -/

namespace Sys2Proof.Machine

/-! ## The words of `expandKey` -/

/-- The schedule `w` after the words of `l` have been written, in the order of `l` (R167). -/
def writeWords (key : Vector Word 8) (w : Vector Word 60) (l : List (Fin 60)) : Vector Word 60 :=
  l.foldl (fun (w : Vector Word 60) (i : Fin 60) => w.set i (scheduleWord genSbox key w i)) w

theorem expandKey_eq_writeWords (key : Vector Word 8) :
    expandKey key = writeWords key (Vector.replicate 60 0) (List.finRange 60) := rfl

theorem getElem_writeWords_of_notMem (key : Vector Word 8) (w : Vector Word 60) {l : List (Fin 60)} {i : Fin 60}
    (h : i ∉ l) : (writeWords key w l)[i] = w[i] := by
  induction l generalizing w with
  | nil => rfl
  | cons j l ih =>
    obtain ⟨hj, hl⟩ : i ≠ j ∧ i ∉ l := by simpa using h
    calc (writeWords key w (j :: l))[i]
      _ = (writeWords key (w.set j (scheduleWord genSbox key w j)) l)[i] := rfl
      _ = (w.set j (scheduleWord genSbox key w j))[i] := ih _ hl
      _ = w[i] := Vector.getElem_set_ne _ _ fun e => hj (Fin.ext e.symm)

/-- The word KEXP(i) writes depends on the words before W[i] only (R165). -/
theorem scheduleWord_congr (t : Table) (key : Vector Word 8) {w w' : Vector Word 60} {i : Fin 60}
    (h : ∀ k : Fin 60, k.val < i.val → w[k] = w'[k]) : scheduleWord t key w i = scheduleWord t key w' i := by
  unfold scheduleWord
  split
  · rfl
  · next hi =>
    have h8 : w[i.val - 8] = w'[i.val - 8] := h ⟨i.val - 8, by omega⟩ (by simp; omega)
    have h1 : w[i.val - 1] = w'[i.val - 1] := h ⟨i.val - 1, by omega⟩ (by simp; omega)
    rw [h8, h1]

/-- A word written in increasing order is the one KEXP computes from the finished words (R168). -/
theorem getElem_writeWords_of_mem (key : Vector Word 8) (w : Vector Word 60) {l : List (Fin 60)} {i : Fin 60}
    (hl : l.Pairwise (· < ·)) (hi : i ∈ l) :
    (writeWords key w l)[i] = scheduleWord genSbox key (writeWords key w l) i := by
  induction l generalizing w with
  | nil => cases hi
  | cons j l ih =>
    obtain ⟨hj, hl'⟩ := List.pairwise_cons.mp hl
    rcases List.mem_cons.mp hi with rfl | hi
    · have hi : i ∉ l := fun hm => lt_irrefl i (hj i hm)
      have hbefore : ∀ k : Fin 60, k.val < i.val → w[k] = (writeWords key w (i :: l))[k] := fun k hk =>
        (getElem_writeWords_of_notMem key w fun hm =>
          (List.mem_cons.mp hm).elim (fun e => by omega) fun hm => by have := hj k hm; omega).symm
      calc (writeWords key w (i :: l))[i]
        _ = (w.set i (scheduleWord genSbox key w i))[i] := getElem_writeWords_of_notMem key _ hi
        _ = scheduleWord genSbox key w i := Vector.getElem_set_self _
        _ = scheduleWord genSbox key (writeWords key w (i :: l)) i := scheduleWord_congr _ _ hbefore
    · exact ih _ hl' hi

/-- Each word of the schedule is the one KEXP(i) computes from the schedule (R165, R168). -/
theorem expandKey_getElem (key : Vector Word 8) (i : Fin 60) :
    (expandKey key)[i] = scheduleWord genSbox key (expandKey key) i :=
  getElem_writeWords_of_mem key _ (List.pairwise_lt_finRange 60) (List.mem_finRange i)

/-! ## The queue of an EXPAND_KEY -/

/-- The queue holds a micro-step KEXP. -/
def HoldsKexp (q : List MicroStep) : Prop := ∃ m ∈ q, ∃ i, m.op = .kexp i

theorem phaseOf_eq_kexp_iff (m : MicroOp) : phaseOf m = .kexp ↔ ∃ i, m = .kexp i := by
  cases m <;> simp [phaseOf]

theorem kexpFrom_eq_cons {j : Nat} (hj : j < 60) :
    kexpFrom j = plainStep (.kexp ⟨j, hj⟩) :: kexpFrom (j + 1) := by
  unfold kexpFrom
  rw [List.drop_eq_getElem_cons (by simpa [expandKeyBody] using hj)]
  simp [expandKeyBody]

@[simp] theorem length_kexpFrom (j : Nat) : (kexpFrom j).length = 60 - j := by
  simp [kexpFrom, expandKeyBody]

theorem kexpFrom_eq_nil {j : Nat} (hj : 60 ≤ j) : kexpFrom j = [] :=
  List.length_eq_zero_iff.mp (by rw [length_kexpFrom]; omega)

/-- The rest of an EXPAND_KEY tells which word comes next. -/
theorem kexpFrom_inj {j k : Nat} (hj : j < 60) (h : kexpFrom j = kexpFrom k) : j = k := by
  have hlen := congrArg List.length h
  simp only [length_kexpFrom] at hlen
  omega

/-- The rest of an EXPAND_KEY that starts with the step m is the one from the word m writes. -/
theorem kexpFrom_eq_cons_iff {j : Nat} {m : MicroStep} {rest : List MicroStep} :
    kexpFrom j = m :: rest ↔ ∃ hj : j < 60, m = plainStep (.kexp ⟨j, hj⟩) ∧ rest = kexpFrom (j + 1) := by
  by_cases hj : j < 60
  · simp [kexpFrom_eq_cons hj, hj, eq_comm]
  · simp [kexpFrom_eq_nil (by omega : 60 ≤ j), hj]

theorem kexpFrom_ne_genFwd_cons (j : Nat) (q : List MicroStep) : kexpFrom j ≠ plainStep .genFwd :: q := by
  intro h
  obtain ⟨hj, hm, -⟩ := kexpFrom_eq_cons_iff.mp h
  cases hm

theorem holdsKexp_kexpFrom {j : Nat} (hj : j < 60) : HoldsKexp (kexpFrom j) :=
  ⟨plainStep (.kexp ⟨j, hj⟩), by simp [kexpFrom_eq_cons hj], ⟨j, hj⟩, rfl⟩

theorem HoldsKexp.cons {q : List MicroStep} (m : MicroStep) (h : HoldsKexp q) : HoldsKexp (m :: q) := by
  obtain ⟨n, hn, hk⟩ := h
  exact ⟨n, List.mem_cons_of_mem m hn, hk⟩

/-- Table generation holds no KEXP (43_driver.md R226). -/
theorem holdsKexp_genPrefix_append {op : BitVec 5} {t : Status} {q : List MicroStep}
    (h : HoldsKexp (genPrefix op t ++ q)) : HoldsKexp q := by
  obtain ⟨m, hm, i, hi⟩ := h
  rcases List.mem_append.mp hm with hm | hm
  · have hgen : m = plainStep .genFwd ∨ m = plainStep .genInv := by
      unfold genPrefix at hm
      grind
    rcases hgen with rfl | rfl <;> cases hi
  · exact ⟨m, hm, i, hi⟩

/-- Only EXPAND_KEY queues a KEXP (R223). -/
theorem eq_expandKey_of_holdsKexp {i : Instr} (h : HoldsKexp (bodyOf i)) : i = .expandKey := by
  obtain ⟨m, hm, hk⟩ := h
  have hphase := (phaseOf_eq_kexp_iff m.op).mpr hk
  have henc : ∀ m ∈ encSeq, phaseOf m.op ≠ .kexp := by decide
  have hdec : ∀ m ∈ decSeq, phaseOf m.op ≠ .kexp := by decide
  cases i with
  | expandKey => rfl
  | encryptBlock => exact absurd hphase (henc m hm)
  | decryptBlock => exact absurd hphase (hdec m hm)
  | genTables => cases hm
  | _ =>
    obtain rfl := List.mem_singleton.mp hm
    cases hphase

/-- The two queues EXPAND_KEY is accepted with (R226). -/
theorem expandKey_queue (t : Status) :
    genPrefix Instr.expandKey.fields.op t ++ bodyOf .expandKey = plainStep .genFwd :: kexpFrom 0 ∨
    genPrefix Instr.expandKey.fields.op t ++ bodyOf .expandKey = kexpFrom 0 := by
  unfold genPrefix
  cases t.sboxValid
  · exact .inl rfl
  · exact .inr rfl

/-! ## States the invariant does not tell apart -/

theorem ScheduleInv.congr {s t : State} (h : ScheduleInv s) (hkey : t.key = s.key) (hw : t.w = s.w)
    (hq : t.queue = s.queue) (hv : t.status.keyValid = s.status.keyValid) : ScheduleInv t := by
  obtain ⟨hvalid, hshape, hpart, hbefore⟩ := h
  constructor
  · rwa [hv, hw]
  · rwa [hq]
  · rwa [hq, hv, hw, hkey]
  · rwa [hq, hv]

/-- With a queue that holds no KEXP only the schedule itself matters. -/
theorem scheduleInv_of_not_holdsKexp {s : State} (hq : ¬ HoldsKexp s.queue)
    (hvalid : s.status.keyValid = true → ∃ key, s.w = expandKey key) : ScheduleInv s where
  valid := hvalid
  shape m hm hk := absurd ⟨m, hm, hk⟩ hq
  partial_schedule j hj h := absurd (h ▸ holdsKexp_kexpFrom hj) hq
  before_generation h := absurd (h ▸ (holdsKexp_kexpFrom (by decide)).cons _) hq

theorem not_holdsKexp_nil : ¬ HoldsKexp [] := fun ⟨_, hm, _⟩ => by cases hm

/-- The invariant with an EXPAND_KEY queued from its first word on, before or after its table generation. -/
theorem scheduleInv_of_start {s : State} (hv : s.status.keyValid = false)
    (hq : s.queue = plainStep .genFwd :: kexpFrom 0 ∨ s.queue = kexpFrom 0) : ScheduleInv s where
  valid h := Bool.noConfusion (hv.symm.trans h)
  shape _ _ _ := hq.imp_right fun h => ⟨0, h⟩
  partial_schedule j hj h := by
    refine ⟨hv, fun i hi => ?_⟩
    rcases hq with hq | hq
    · exact absurd (h.symm.trans hq) (kexpFrom_ne_genFwd_cons j _)
    · have := kexpFrom_inj hj (h.symm.trans hq)
      omega
  before_generation _ := hv

/-! ## A step of the engine -/

/-- A micro-step other than KEXP leaves at most an EXPAND_KEY that has not begun. -/
theorem scheduleInv_tail {s t : State} {m : MicroStep} {rest : List MicroStep} (h : ScheduleInv s)
    (hq : s.queue = m :: rest) (hm : ∀ i, m.op ≠ .kexp i) (hqt : t.queue = rest) (hw : t.w = s.w)
    (hv : t.status.keyValid = s.status.keyValid) : ScheduleInv t := by
  by_cases hk : HoldsKexp rest
  · obtain ⟨n, hn, hi⟩ := hk.cons m
    rcases h.shape n (hq ▸ hn) hi with hs | ⟨j, hs⟩
    · have hrest : rest = kexpFrom 0 := List.tail_eq_of_cons_eq (hq.symm.trans hs)
      exact scheduleInv_of_start (hv.trans (h.before_generation hs)) (.inr (hqt.trans hrest))
    · obtain ⟨hj, hmj, -⟩ := kexpFrom_eq_cons_iff.mp (hs.symm.trans hq)
      exact absurd (congrArg MicroStep.op hmj) (hm ⟨j, hj⟩)
  · refine scheduleInv_of_not_holdsKexp (hqt ▸ hk) ?_
    rw [hv, hw]
    exact h.valid

/-- A KEXP at the head of Q: Q is the rest of an EXPAND_KEY from that word on. -/
theorem ScheduleInv.queue_of_kexp {s : State} {m : MicroStep} {rest : List MicroStep} {i : Fin 60}
    (h : ScheduleInv s) (hq : s.queue = m :: rest) (hm : m.op = .kexp i) :
    s.queue = kexpFrom i ∧ rest = kexpFrom (i + 1) := by
  rcases h.shape m (by simp [hq]) ⟨i, hm⟩ with hs | ⟨j, hs⟩
  · have hgen : m = plainStep .genFwd := List.head_eq_of_cons_eq (hq.symm.trans hs)
    rw [hgen] at hm
    cases hm
  · obtain ⟨hj, hmj, hrest⟩ := kexpFrom_eq_cons_iff.mp (hs.symm.trans hq)
    rw [hmj] at hm
    cases hm
    exact ⟨hs, hrest⟩

/-- KEXP(i) writes word i of the schedule of KEY after the words before it (41_key_schedule.md R168). -/
theorem schedule_words_succ {key : Vector Word 8} {w : Vector Word 60} {i : Fin 60}
    (h : ∀ k : Fin 60, k.val < i.val → w[k] = (expandKey key)[k]) (k : Fin 60) (hk : k.val < i.val + 1) :
    (w.set i (scheduleWord genSbox key w i))[k] = (expandKey key)[k] := by
  by_cases hki : k = i
  · subst hki
    calc (w.set k (scheduleWord genSbox key w k))[k]
      _ = scheduleWord genSbox key w k := Vector.getElem_set_self _
      _ = scheduleWord genSbox key (expandKey key) k := scheduleWord_congr _ _ h
      _ = (expandKey key)[k] := (expandKey_getElem key k).symm
  · have hne : k.val ≠ i.val := fun e => hki (Fin.ext e)
    exact (Vector.getElem_set_ne _ _ hne.symm).trans (h k (by omega))

/-- KEXP(i) leaves the words up to i written, and after the last one a whole schedule. -/
theorem scheduleInv_kexp {s t : State} {m : MicroStep} {rest : List MicroStep} {i : Fin 60} (h : ScheduleInv s)
    (hq : s.queue = m :: rest) (hm : m.op = .kexp i) (hqt : t.queue = rest) (hkey : t.key = s.key)
    (hw : t.w = s.w.set i (scheduleWord genSbox s.key s.w i))
    (hv : t.status.keyValid = (s.status.keyValid || i.val == 59)) : ScheduleInv t := by
  obtain ⟨hqs, hrest⟩ := h.queue_of_kexp hq hm
  obtain ⟨hvs, hwords⟩ := h.partial_schedule i i.isLt hqs
  have hwords' : ∀ k : Fin 60, k.val < i.val + 1 → t.w[k] = (expandKey t.key)[k] := by
    rw [hw, hkey]
    exact schedule_words_succ hwords
  rw [hvs, Bool.false_or] at hv
  have hqt' : t.queue = kexpFrom (i + 1) := hqt.trans hrest
  refine ⟨fun h1 => ⟨t.key, ?_⟩, fun _ _ _ => .inr ⟨i + 1, hqt'⟩, fun j hj hqj => ?_, fun hg => ?_⟩
  · have hi : i.val = 59 := by simpa using hv.symm.trans h1
    exact Vector.ext fun k hk => hwords' ⟨k, hk⟩ (by simp; omega)
  · obtain rfl : j = i + 1 := kexpFrom_inj hj (hqj.symm.trans hqt')
    refine ⟨?_, hwords'⟩
    rw [hv, beq_eq_false_iff_ne]
    omega
  · exact absurd (hqt'.symm.trans hg) (kexpFrom_ne_genFwd_cons _ _)

/-- A step of the engine. -/
theorem scheduleInv_engineStep {s : State} (he : EngineInv s) (h : ScheduleInv s) : ScheduleInv (engineStep s) := by
  cases hq : s.queue with
  | nil => rwa [engineStep_idle hq]
  | cons m rest =>
    obtain ⟨hkey, -⟩ := engineStep_key_din s
    have hqt : (engineStep s).queue = rest := by rw [he.engineStep_eq hq, finishStep_eq]
    by_cases hm : ∃ i, m.op = .kexp i
    · obtain ⟨i, hi⟩ := hm
      have hready := he.ready
      rw [hq] at hready
      have hsbox : s.sbox = genSbox := he.tables.sbox_content (sboxValid_of_reads hready (.inr ⟨i, hi⟩))
      apply scheduleInv_kexp h hq hi hqt hkey
      · simp [he.engineStep_eq hq, finishStep_eq, showStep_fsm, perform, hi, hsbox]
      · simp [he.engineStep_eq hq, finishStep_eq, showStep_fsm, perform, hi]
    · push Not at hm
      obtain ⟨-, -, -, -, -, -, -, -, -, hkexp, -⟩ := microStepFrame s m rest hq
      obtain ⟨hw, hv⟩ := hkexp hm
      exact scheduleInv_tail h hq hm hqt hw hv

/-! ## Acceptance and the host -/

theorem scheduleInv_accept {s : State} (i : Instr) (h : ScheduleInv s) :
    ScheduleInv (accept i.fields (bodyOf i) s) := by
  have hv : (accept i.fields (bodyOf i) s).status.keyValid = (s.status.keyValid && i.fields.op != opExpandKey) := by
    rw [accept_eq]
    cases genPrefix i.fields.op s.status ++ bodyOf i <;> rfl
  obtain ⟨st, fsm, q, ht⟩ := accept_frame i.fields (bodyOf i) s
  have hq := accept_queue i.fields (bodyOf i) s
  by_cases hk : HoldsKexp (accept i.fields (bodyOf i) s).queue
  · rw [hq] at hk
    obtain rfl := eq_expandKey_of_holdsKexp (holdsKexp_genPrefix_append hk)
    refine scheduleInv_of_start (hv.trans (by simp [Instr.fields])) ?_
    rw [hq]
    exact expandKey_queue s.status
  · refine scheduleInv_of_not_holdsKexp hk fun hkv => ?_
    rw [hv, Bool.and_eq_true] at hkv
    rw [ht]
    exact h.valid hkv.1

/-- Settles O59: the engine and each effect of a host operation keep the invariant; a write of KEY finds Q empty. -/
theorem scheduleInvariantKept : Obligations.ScheduleInvariantKept := by
  intro s t he hs hstep
  cases stepEffect_of_step hstep with
  | idle => exact hs
  | engine h hq => exact scheduleInv_engineStep (he.congr rfl) (hs.congr rfl rfl rfl rfl)
  | @host op rest _ hop heff =>
    have hs' : ScheduleInv (setHost rest s) := hs.congr rfl rfl rfl rfl
    cases heff with
    | observes => exact hs'.congr rfl rfl rfl rfl
    | drops => exact hs'.congr rfl rfl rfl rfl
    | setsKey off v k hidle =>
      have hq : s.queue = [] := by
        by_contra hne
        exact Bool.noConfusion (hidle.symm.trans (he.busy_iff.mpr hne))
      refine scheduleInv_of_not_holdsKexp ?_ hs.valid
      rw [setKey_queue, setHost_queue, hq]
      exact not_holdsKexp_nil
    | setsDin => exact hs'.congr rfl rfl rfl rfl
    | rejects => exact hs'.congr rfl rfl rfl rfl
    | accepts _ i => exact scheduleInv_accept i hs'
    | resets => exact scheduleInv_of_not_holdsKexp not_holdsKexp_nil fun h => Bool.noConfusion h

/-- Settles O57: after reset nothing is queued and every flag is 0. -/
theorem invariantsHoldAtReset : Obligations.InvariantsHoldAtReset :=
  ⟨engineInv_of_reset rfl rfl rfl rfl, scheduleInv_of_not_holdsKexp not_holdsKexp_nil fun h => Bool.noConfusion h⟩

end Sys2Proof.Machine

/-! SUPPORT. The register words STATUS and FSM bit by bit (10_state.md R30, R40), the values after reset (R50), and the
host's writes while BUSY = 0 (20_memory.md R63, R66). -/

namespace Sys2Proof.Machine

/-! ## STATUS and FSM -/

theorem statusWord_flags (t : Status) :
    (statusWord t).getLsbD 0 = t.busy ∧ (statusWord t).getLsbD 1 = t.done ∧
    (statusWord t).getLsbD 2 = t.keyValid ∧ (statusWord t).getLsbD 3 = t.sboxValid ∧
    (statusWord t).getLsbD 4 = t.invValid ∧ (statusWord t).getLsbD 5 = t.errSticky ∧
    (statusWord t).getLsbD 6 = t.ovr ∧ (statusWord t).getLsbD 7 = false := by
  simp only [statusWord, BitVec.getLsbD_append]
  simp

theorem statusWord_err (t : Status) : (statusWord t).extractLsb 11 8 = errorBits t.err := by
  apply BitVec.eq_of_getLsbD_eq
  intro i hi
  simp only [statusWord, BitVec.getLsbD_extractLsb, BitVec.getLsbD_append]
  interval_cases i <;> simp

theorem statusWord_upper (t : Status) : (statusWord t).extractLsb 31 12 = 0 := by
  apply BitVec.eq_of_getLsbD_eq
  intro i hi
  simp only [statusWord, BitVec.getLsbD_extractLsb, BitVec.getLsbD_append]
  interval_cases i <;> simp

theorem fsmWord_slices (f : Fsm) :
    (fsmWord f).extractLsb 3 0 = phaseBits f.phase ∧ (fsmWord f).extractLsb 7 4 = 0 ∧
    (fsmWord f).extractLsb 11 8 = f.round ∧ (fsmWord f).extractLsb 15 12 = 0 ∧
    (fsmWord f).extractLsb 21 16 = f.kidx ∧ (fsmWord f).extractLsb 23 22 = 0 ∧
    (fsmWord f).extractLsb 28 24 = f.op ∧ (fsmWord f).extractLsb 31 29 = 0 := by
  refine ⟨?_, ?_, ?_, ?_, ?_, ?_, ?_, ?_⟩
  all_goals
    apply BitVec.eq_of_getLsbD_eq
    intro i hi
    simp only [fsmWord, BitVec.getLsbD_extractLsb, BitVec.getLsbD_append]
    interval_cases i <;> simp

theorem phaseBits_eq_phaseCode (p : Phase) : phaseBits p = phaseCode p := by
  cases p <;> rfl

/-- Settles O7: the fields lie side by side, from the low bits up. -/
theorem statusAndFsmWordLayout : Obligations.StatusAndFsmWordLayout := by
  refine ⟨fun t => ?_, fun f => phaseBits_eq_phaseCode f.phase ▸ fsmWord_slices f⟩
  obtain ⟨h0, h1, h2, h3, h4, h5, h6, h7⟩ := statusWord_flags t
  refine ⟨h0, h1, h2, h3, h4, h5, h6, h7, ?_, statusWord_upper t⟩
  rw [statusWord_err]
  cases t.err <;> rfl

/-! ## The values after reset -/

/-- Settles O21: the registers are vectors of zeros, the rest is read off State.reset. -/
theorem resetStateValues : Obligations.ResetStateValues := by
  refine ⟨?_, ?_, ?_, ?_, ?_, rfl, rfl, rfl, rfl, rfl, rfl, rfl, rfl⟩
  all_goals simp [State.reset, cell]

/-! ## The host's writes while BUSY = 0 -/

/-- A write at an offset from 0x030 on changes no register: these are read-only, reserved, or CMD (20_memory.md R61,
R63, R66). -/
theorem regWrite_readOnly {off : Nat} (h : 0x030 ≤ off) (v : Word) (s : State) : regWrite (regAt off) v s = s := by
  cases hr : regAt off with
  | none => rfl
  | some r =>
    cases r with
    | key k => exact absurd (regAt_key_lt hr) (by omega)
    | din k => exact absurd (regAt_din_lt hr) (by omega)
    | _ => rfl

/-- An aligned 32-bit write in the window at an offset other than CMD is a write of the register there (R64). -/
theorem step_write {s : State} {rest : List HostEvent} {off : Nat} {v : Word}
    (h : NextOp s (.write (base s + off) 4 v) rest) (hin : off < 4096) (h4 : off % 4 = 0) (hcmd : off ≠ 0x040) :
    step s = .next (regWrite (regAt off) v (setHost rest s)) := by
  obtain ⟨d, hh, hd⟩ := h
  have ho : accessOffset (setHost rest s) (base s + off) 4 = .ok off := accessOffset_inside hin h4
  have hw : commandWord (.write (base s + off) 4 v) (setHost rest s) = none := by
    simp [commandWord, ho, mt regAt_eq_cmd hcmd]
  simp [step, nextTurn_host hh hd, hw, hostTurn, memWrite, ho]

/-- Settles O16: `step_write` at the offsets of KEY, of DIN and of what is read-only or reserved. -/
theorem idleHostWriteSetsKeyOrDin : Obligations.IdleHostWriteSetsKeyOrDin := by
  intro s rest off v hop hidle
  refine ⟨fun k hoff => ?_, fun k hoff => ?_, fun ⟨h4, hlo, hin, hcmd⟩ => ?_⟩
  · have hr : regAt off = some (.key k) := by
      rw [hoff]
      exact regAt_regOffset (.key k)
    rw [step_write hop (by omega) (by omega) (by omega), hr]
    simp [regWrite, hidle, setKey, setHost]
  · have hr : regAt off = some (.din k) := by
      rw [hoff]
      exact regAt_regOffset (.din k)
    rw [step_write hop (by omega) (by omega) (by omega), hr]
    simp [regWrite, hidle, setDin, setHost]
  · rw [step_write hop hin h4 hcmd, regWrite_readOnly hlo]
    rfl

end Sys2Proof.Machine

/-! SUPPORT. The window while a command runs: the step of a host operation, what a read returns (20_memory.md R61 to
R66, R73), and what R72 leaves of a write. -/

namespace Sys2Proof.Machine

/-! ## The step of a host operation -/

/-- A host operation that presents no command word is performed as it is. -/
theorem step_eq_hostTurn {s : State} {op : HostOp} {rest : List HostEvent} (hop : NextOp s op rest)
    (hw : commandWord op (setHost rest s) = none) : step s = hostTurn op (setHost rest s) := by
  obtain ⟨d, hh, hd⟩ := hop
  simp [step, nextTurn_host hh hd, hw]

/-- The kind of access does not matter to an access that the window turns away (R64, R65). -/
theorem step_fault_of_accessOffset {s : State} {rest : List HostEvent} {addr bytes : Nat} {v : Word} {e : Fault}
    (hop : NextOp s (.read addr bytes) rest ∨ NextOp s (.write addr bytes v) rest)
    (he : accessOffset (setHost rest s) addr bytes = .error e) : step s = .fault e := by
  rcases hop with hop | hop
  · rw [step_eq_hostTurn hop rfl]
    simp [hostTurn, memRead, he]
  · rw [step_eq_hostTurn hop (by simp [commandWord, he])]
    simp [hostTurn, memWrite, he]

/-- Settles O18: the window turns the access away, whichever kind it is. -/
theorem unsupportedAccessIsABusError : Obligations.UnsupportedAccessIsABusError := by
  intro s rest addr bytes v hop hlo hhi hbad
  exact step_fault_of_accessOffset hop (accessOffset_busError hlo hhi hbad)

/-! ## Command words and writes while BUSY = 1 -/

theorem exec_busy (i : Instr) {s : State} (hbusy : s.status.busy = true) : exec i s = .next (dropWrite s) := by
  rw [exec_eq_presentCommand, presentCommand_busy hbusy]

/-- Settles O28: `exec_busy`, where dropping a write sets OVR. -/
theorem busyCommandIsDropped : Obligations.BusyCommandIsDropped := by
  intro i s hbusy
  rw [exec_busy i hbusy]
  rfl

/-- An aligned 32-bit write to CMD presents its value (10_state.md R43, 43_driver.md R220). -/
theorem commandWord_write_cmd (s : State) (v : Word) : commandWord (.write (base s + 0x040) 4 v) s = some v := by
  have ho : accessOffset s (base s + 0x040) 4 = .ok 0x040 := accessOffset_inside (by decide) (by decide)
  have hr : regAt 0x040 = some .cmd := regAt_regOffset .cmd
  simp [commandWord, ho, hr]

/-- A command word written while BUSY = 1 is dropped, whether it decodes or not (R72, 43_driver.md R220). -/
theorem step_command_busy {s : State} {op : HostOp} {rest : List HostEvent} {w : Word} (hop : NextOp s op rest)
    (hw : commandWord op (setHost rest s) = some w) (hbusy : s.status.busy = true) :
    step s = .next (dropWrite (setHost rest s)) := by
  obtain ⟨d, hh, hd⟩ := hop
  cases hdec : decode w with
  | ok i =>
    have hexec : exec i (setHost rest s) = .next (dropWrite (setHost rest s)) := exec_busy i hbusy
    simp [step, nextTurn_host hh hd, hw, hdec, hexec]
  | error e => simp [step, nextTurn_host hh hd, hw, hdec, presentIllegal, hbusy]

/-- The registers below 0x030 are KEY and DIN, which do not take a value while BUSY = 1 (R61, R72). -/
theorem regWrite_busy {s : State} {off : Nat} (hoff : off < 0x030) (v : Word) (hbusy : s.status.busy = true) :
    regWrite (regAt off) v s = dropWrite s := by
  unfold regAt
  split_ifs <;> simp [regWrite, hbusy]

/-- Settles O17: CMD by `step_command_busy`, the other offsets by `step_write`. -/
theorem busyHostWriteIsDropped : Obligations.BusyHostWriteIsDropped := by
  intro s rest off v hop hbusy h4 hin
  refine ⟨?_, fun hother => ?_⟩
  · rintro (hoff | rfl)
    · rw [step_write hop hin h4 (by omega), regWrite_busy hoff v (s := setHost rest s) hbusy]
      rfl
    · rw [step_command_busy hop (commandWord_write_cmd (setHost rest s) v) hbusy]
      rfl
  · rw [step_write hop hin h4 (by omega), regWrite_readOnly (by omega)]
    rfl

/-- Settles O22: a command word is dropped; of the effects of the other operations, those that change more of the core
than OVR need BUSY = 0 or are the reset. -/
theorem hostCannotDisturbARunningCommand : Obligations.HostCannotDisturbARunningCommand := by
  intro s t op rest hop hreset hbusy hstep
  cases hw : commandWord op (setHost rest s) with
  | some w =>
    cases (step_command_busy hop hw hbusy).symm.trans hstep
    rfl
  | none =>
    have not_idle : (setHost rest s).status.busy ≠ false := by simp [hbusy]
    cases hostEffect_of_hostTurn ((step_eq_hostTurn hop hw).symm.trans hstep) with
    | observes => rfl
    | drops => rfl
    | setsKey _ _ _ hidle => exact absurd hidle not_idle
    | setsDin _ _ _ hidle => exact absurd hidle not_idle
    | rejects _ _ _ hidle => exact absurd hidle not_idle
    | accepts _ _ hidle => exact absurd hidle not_idle
    | resets => exact absurd rfl hreset

/-! ## Reads -/

/-- An aligned 32-bit read in the window is a read of the register at its offset (R64). -/
theorem step_read {s : State} {rest : List HostEvent} {off : Nat} (hop : NextOp s (.read (base s + off) 4) rest)
    (hin : off < 4096) (h4 : off % 4 = 0) :
    step s = .next (regRead (base s + off) (regAt off) (setHost rest s)) := by
  have ho : accessOffset (setHost rest s) (base s + off) 4 = .ok off := accessOffset_inside hin h4
  rw [step_eq_hostTurn hop rfl]
  simp [hostTurn, memRead, ho]

theorem step_read_regOffset {s : State} {rest : List HostEvent} {r : Reg}
    (hop : NextOp s (.read (base s + regOffset r) 4) rest) :
    step s = .next (regRead (base s + regOffset r) (some r) (setHost rest s)) := by
  obtain ⟨hin, h4⟩ := regOffset_inside r
  rw [step_read hop hin h4, regAt_regOffset]

/-- A read returns the register's value where R73 does not leave it open. -/
theorem regRead_defined {s : State} {r : Option Reg} (h : s.status.busy = false ∨ openWhileBusy r = false)
    (addr : Nat) : regRead addr r s = logRead addr (regValue s r) s := by
  rcases h with h | h
  · simp [regRead, h]
  · simp [regRead, h]

@[simp] theorem regValue_setHost (h : List HostEvent) (s : State) (r : Option Reg) :
    regValue (setHost h s) r = regValue s r := by
  rcases r with _ | r
  · rfl
  · cases r <;> rfl

theorem regAt_reserved {off : Nat} (h : 0x050 ≤ off ∧ off ≤ 0x0FC ∨ 0x1F0 ≤ off) : regAt off = none := by
  unfold regAt
  grind

/-- The offsets that are defined at all times name registers that R73 does not leave open, or are reserved. -/
theorem AlwaysReads.register_or_reserved {s : State} {off : Nat} {v : Word} (h : AlwaysReads s off v) :
    (∃ r, off = regOffset r ∧ openWhileBusy (some r) = false ∧ v = regValue s (some r)) ∨
    (off < 4096 ∧ off % 4 = 0 ∧ regAt off = none ∧ v = 0) := by
  rcases h with ⟨k, hoff, hv⟩ | ⟨k, hoff, hv⟩ | ⟨hoff, hv⟩ | ⟨hoff, hv⟩ | ⟨h4, hoff, hv⟩
  · exact .inl ⟨.key k, hoff, rfl, hv⟩
  · exact .inl ⟨.din k, hoff, rfl, hv⟩
  · exact .inl ⟨.cmd, hoff, rfl, hv⟩
  · exact .inl ⟨.status, hoff, rfl, hv⟩
  · exact .inr ⟨by omega, h4, regAt_reserved (by omega), hv⟩

theorem ReadsWhenIdle.register {s : State} {off : Nat} {v : Word} (h : ReadsWhenIdle s off v) :
    ∃ r, off = regOffset r ∧ v = regValue s (some r) := by
  rcases h with ⟨k, hoff, hv⟩ | ⟨hoff, hv⟩ | ⟨hoff, hv⟩ | ⟨i, hoff, hv⟩
  · exact ⟨.dout k, hoff, hv⟩
  · exact ⟨.result, hoff, hv⟩
  · exact ⟨.fsm, hoff, hv⟩
  · exact ⟨.w i, hoff, hv⟩

theorem OpenOffset.register {off : Nat} (h : OpenOffset off) :
    ∃ r, off = regOffset r ∧ openWhileBusy (some r) = true := by
  rcases h with ⟨k, hoff⟩ | hoff | hoff | ⟨i, hoff⟩
  · exact ⟨.dout k, hoff, rfl⟩
  · exact ⟨.result, hoff, rfl⟩
  · exact ⟨.fsm, hoff, rfl⟩
  · exact ⟨.w i, hoff, rfl⟩

/-- Settles O14: at a defined offset the read is of the register there, or of no register. -/
theorem hostReadReturnsTheRegister : Obligations.HostReadReturnsTheRegister := by
  intro s rest off v hop hreads
  rcases hreads with halways | ⟨hidle, hreads⟩
  · rcases halways.register_or_reserved with ⟨r, rfl, hdef, rfl⟩ | ⟨hin, h4, hr, rfl⟩
    · rw [step_read_regOffset hop, regRead_defined (.inr hdef), regValue_setHost]
      rfl
    · rw [step_read hop hin h4, hr, regRead_defined (.inr rfl)]
      rfl
  · obtain ⟨r, rfl, rfl⟩ := hreads.register
    rw [step_read_regOffset hop, regRead_defined (s := setHost rest s) (.inl hidle), regValue_setHost]
    rfl

/-- Settles O15: at an open offset the read is of a register that R73 leaves open. -/
theorem busyReadReturnsAFreeValue : Obligations.BusyReadReturnsAFreeValue := by
  intro s rest off hop hbusy hopen
  obtain ⟨r, rfl, hr⟩ := hopen.register
  rw [step_read_regOffset hop]
  simp [regRead, hbusy, hr, nextDraw, logRead, setHost]

end Sys2Proof.Machine

/-! SUPPORT. The decoder and the encoder (30_encoding.md R90 to R105): a word decodes to a command exactly when its
reserved bits are 0 and its fields are the command's. Both directions between words and commands, the words refused and
the line `cmd` follow from that. -/

namespace Sys2Proof

/-! ## The fields of a command -/

/-- The fields that the opcode does not use are 0 (R96). -/
def UnusedFieldsZero (f : CmdFields) : Prop :=
  (usesRnd f.op = false → f.rnd = 0) ∧ (usesX f.op = false → f.x = 0) ∧ (usesC f.op = false → f.c = 0)

theorem commandOf_fields (i : Instr) : commandOf i.fields = some i := by
  cases i <;> rfl

theorem unusedFieldsZero_fields (i : Instr) : UnusedFieldsZero i.fields := by
  cases i <;> simp [UnusedFieldsZero, Instr.fields, usesRnd, usesX, usesC]

theorem op_of_commandOf {f : CmdFields} {i : Instr} (h : commandOf f = some i) : f.op = i.fields.op := by
  unfold commandOf at h
  split at h <;> cases h <;> exact BitVec.eq_of_toNat_eq ‹_›

theorem cmdFields_ext {f g : CmdFields} (hop : f.op = g.op) (hrnd : f.rnd = g.rnd) (hx : f.x = g.x) (hc : f.c = g.c) :
    f = g := by
  cases f
  cases g
  simp_all

/-- The opcode and the fields it uses are the command's, and so are the others, being 0 (R96, R97). -/
theorem eq_fields_iff (f : CmdFields) (i : Instr) : f = i.fields ↔ commandOf f = some i ∧ UnusedFieldsZero f := by
  constructor
  · rintro rfl
    exact ⟨commandOf_fields i, unusedFieldsZero_fields i⟩
  · rintro ⟨hcmd, hrnd, hx, hc⟩
    obtain ⟨op, rnd, x, c⟩ := f
    obtain rfl : op = i.fields.op := op_of_commandOf hcmd
    cases i with
    | sboxLookup => exact cmdFields_ext rfl (hrnd rfl) (Instr.sboxLookup.inj (Option.some.inj hcmd)) (hc rfl)
    | invSboxLookup => exact cmdFields_ext rfl (hrnd rfl) (Instr.invSboxLookup.inj (Option.some.inj hcmd)) (hc rfl)
    | gfMul =>
      obtain ⟨hx, hc⟩ := Instr.gfMul.inj (Option.some.inj hcmd)
      exact cmdFields_ext rfl (hrnd rfl) hx hc
    | addRoundKey => exact cmdFields_ext rfl (Instr.addRoundKey.inj (Option.some.inj hcmd)) (hx rfl) (hc rfl)
    | _ => exact cmdFields_ext rfl (hrnd rfl) (hx rfl) (hc rfl)

/-- Only the reserved opcodes name no command (R99). -/
theorem commandOf_eq_none_iff (f : CmdFields) : commandOf f = none ↔ f.op ≥ 0x11 := by
  rw [ge_iff_le, BitVec.le_def]
  unfold commandOf
  split <;> grind

/-! ## The decoder -/

/-- The checks of R98 pass on the words without reserved bits whose fields are a command's. -/
theorem decode_eq_ok_iff (w : Word) (i : Instr) :
    decode w = .ok i ↔ (rsv0Field w = 0 ∧ rsv1Field w = 0) ∧ fieldsOf w = i.fields := by
  rw [eq_fields_iff]
  unfold decode UnusedFieldsZero
  cases commandOf (fieldsOf w) with
  | none => grind
  | some j => grind [fieldsOf]

theorem fieldsOf_assemble (f : CmdFields) : fieldsOf (assemble f) = f := by
  rw [fieldsOf, opField_assemble, rndField_assemble, xField_assemble, cField_assemble]

/-- Settles O1: the command's word has no reserved bit set and the command's fields. -/
theorem decodeUndoesEncode : Obligations.DecodeUndoesEncode := fun i =>
  (decode_eq_ok_iff (encode i) i).mpr
    ⟨⟨rsv0Field_assemble i.fields, rsv1Field_assemble i.fields⟩, fieldsOf_assemble i.fields⟩

/-- Settles O2: the word is made again from its fields, which are the command's. -/
theorem encodeUndoesDecode : Obligations.EncodeUndoesDecode := by
  intro w i h
  obtain ⟨⟨h0, h1⟩, hfields⟩ := (decode_eq_ok_iff w i).mp h
  calc encode i
    _ = assemble (fieldsOf w) := congrArg assemble hfields.symm
    _ = w := assemble_fieldsOf w h0 h1

/-! ## The words refused -/

theorem usesRnd_eq_false_iff (op : BitVec 5) : usesRnd op = false ↔ op ≠ 0x10 := by
  simp [usesRnd, opAddRoundKey]

theorem usesX_eq_false_iff (op : BitVec 5) : usesX op = false ↔ op ≠ 0x05 ∧ op ≠ 0x06 ∧ op ≠ 0x07 := by
  simp [usesX, opSboxLookup, opInvSboxLookup, opGfMul, and_assoc]

theorem usesC_eq_false_iff (op : BitVec 5) : usesC op = false ↔ op ≠ 0x07 := by
  simp [usesC, opGfMul]

/-- The slices of R98 are the fields of the word. -/
theorem illegalWord_iff (w : Word) : Machine.IllegalWord w ↔
    (rsv0Field w ≠ 0 ∨ rsv1Field w ≠ 0) ∨ opField w ≥ 0x11 ∨ (rndField w ≠ 0 ∧ opField w ≠ 0x10) ∨
      (xField w ≠ 0 ∧ opField w ≠ 0x05 ∧ opField w ≠ 0x06 ∧ opField w ≠ 0x07) ∨ (cField w ≠ 0 ∧ opField w ≠ 0x07) :=
  Iff.rfl

theorem not_illegalWord_iff (w : Word) : ¬ Machine.IllegalWord w ↔
    (rsv0Field w = 0 ∧ rsv1Field w = 0) ∧ ¬ opField w ≥ 0x11 ∧ UnusedFieldsZero (fieldsOf w) := by
  simp only [illegalWord_iff, UnusedFieldsZero, fieldsOf, usesRnd_eq_false_iff, usesX_eq_false_iff, usesC_eq_false_iff]
  grind

theorem exists_decode_eq_ok_iff (w : Word) : (∃ i, decode w = .ok i) ↔ ¬ Machine.IllegalWord w := by
  have hcmd : (∃ i, commandOf (fieldsOf w) = some i) ↔ ¬ opField w ≥ 0x11 :=
    Option.ne_none_iff_exists'.symm.trans (commandOf_eq_none_iff (fieldsOf w)).not
  simp only [decode_eq_ok_iff, eq_fields_iff, exists_and_left, exists_and_right, hcmd, not_illegalWord_iff]

/-- Settles O3: `exists_decode_eq_ok_iff`, and the fields of a word that decodes are the command's. -/
theorem decodeRefusesExactlyIllegalWords : Obligations.DecodeRefusesExactlyIllegalWords := by
  refine fun w => ⟨fun hw => ?_, fun hw => ?_⟩
  · cases hd : decode w with
    | error e => exact ⟨e, rfl⟩
    | ok i => exact absurd hw ((exists_decode_eq_ok_iff w).mp ⟨i, hd⟩)
  · obtain ⟨i, hi⟩ := (exists_decode_eq_ok_iff w).mpr hw
    obtain ⟨-, hfields⟩ := (decode_eq_ok_iff w i).mp hi
    exact ⟨i, hi, hfields.symm⟩

/-! ## Examples -/

/-- Settles O4: each of the words is the encoder's. -/
theorem exampleWordsDecode : Obligations.ExampleWordsDecode :=
  ⟨decodeUndoesEncode .expandKey, decodeUndoesEncode (.addRoundKey 1), decodeUndoesEncode (.addRoundKey 14),
    decodeUndoesEncode (.sboxLookup 0x53), decodeUndoesEncode (.gfMul 0x57 2), decodeUndoesEncode (.gfMul 0x57 14),
    ⟨.reservedOpcode, rfl⟩, ⟨.unusedX, rfl⟩, decodeUndoesEncode .nop, decodeUndoesEncode .encryptBlock,
    decodeUndoesEncode .decryptBlock, decodeUndoesEncode .genTables, decodeUndoesEncode (.invSboxLookup 0xED),
    decodeUndoesEncode .loadState, decodeUndoesEncode .unloadState, decodeUndoesEncode .subBytes,
    decodeUndoesEncode .invSubBytes, decodeUndoesEncode .shiftRows, decodeUndoesEncode .invShiftRows,
    decodeUndoesEncode .mixColumns, decodeUndoesEncode .invMixColumns⟩

/-! ## The line `cmd` -/

/-- Fields side by side are the fields shifted to their places, the reserved bits being 0 (R90, R105). -/
theorem assemble_eq_shiftLeft_or (f : CmdFields) : assemble f =
    (f.c.setWidth 32 <<< 24) ||| (f.x.setWidth 32 <<< 16) ||| (f.rnd.setWidth 32 <<< 8) ||| f.op.setWidth 32 := calc
  assemble f = (f.c ++ f.x ++ 0#4 ++ f.rnd ++ 0#3 ++ f.op).setWidth 32 := (BitVec.setWidth_eq _).symm
  _ = _ := by
    simp only [BitVec.setWidth_append_eq_shiftLeft_setWidth_or, BitVec.shiftLeft_or_distrib,
      ← BitVec.shiftLeft_add, BitVec.setWidth_zero, BitVec.or_zero]

theorem fields_eq_lineFields (i : Instr) :
    i.fields = ⟨(Machine.lineFields i).1, (Machine.lineFields i).2.1, (Machine.lineFields i).2.2.1,
      (Machine.lineFields i).2.2.2⟩ := by
  cases i <;> rfl

/-- Settles O5: the word of the line is `assemble` of the fields, by definition of `lineOps`. -/
theorem commandLineWritesTheShiftedFields : Obligations.CommandLineWritesTheShiftedFields := by
  intro i op rnd x c baseAddr gaps h
  have hfields : i.fields = ⟨op, rnd, x, c⟩ := by rw [fields_eq_lineFields, h]
  refine ⟨?_, rfl⟩
  rw [encode, hfields, assemble_eq_shiftLeft_or]

end Sys2Proof

/-! SUPPORT. The loop `wait` (30_encoding.md R106): a step of it, and its end (70_reset_and_hazards.md R311). -/

namespace Sys2Proof.Machine

/-- The run from `s` comes to a state with BUSY = 0 in which `rest` is what the host has still to do. -/
def ComesToIdle (rest : List HostEvent) (s : State) : Prop :=
  ∃ n t, Host.Core.run Sys2Proof.core n s = .next t ∧ t.host = rest ∧ t.status.busy = false

theorem ComesToIdle.of_step {rest : List HostEvent} {s t : State} (h : ComesToIdle rest t) (hs : step s = .next t) :
    ComesToIdle rest s := by
  obtain ⟨n, u, hrun, hu⟩ := h
  exact ⟨n + 1, u, (run_succ hs).trans hrun, hu⟩

/-- A delay that is not used up leaves the step to the engine (43_driver.md R225). -/
theorem step_delayed {s : State} {d : Nat} {op : HostOp} {rest : List HostEvent} (hh : s.host = ⟨d + 1, op⟩ :: rest)
    (hq : s.queue ≠ []) : step s = .next (engineStep (setHost (⟨d, op⟩ :: rest) s)) := by
  obtain ⟨m, q, hq⟩ := List.exists_cons_of_ne_nil hq
  simp [step, nextTurn, hh, hq]

theorem step_wait {s : State} {gaps : List Nat} {rest : List HostEvent} (hop : NextOp s (.wait gaps) rest) :
    step s = .next (waitTurn gaps (setHost rest s)) :=
  step_eq_hostTurn hop rfl

/-- The engine takes one micro-step from Q and leaves the host alone. -/
theorem EngineInv.engineStep_queue_host {s : State} {m : MicroStep} {q : List MicroStep} (h : EngineInv s)
    (hq : s.queue = m :: q) : (engineStep s).queue = q ∧ (engineStep s).host = s.host := by
  obtain ⟨-, -, -, -, -, hhost, -⟩ := microStepFrame s m q hq
  refine ⟨?_, hhost⟩
  rw [h.engineStep_eq hq, finishStep_eq]

/-- A delay of a `wait` while Q is not empty is one in which the engine takes a micro-step from Q. -/
theorem ComesToIdle.of_delayed {s : State} {d : Nat} {gaps : List Nat} {rest : List HostEvent} {m : MicroStep}
    {q : List MicroStep} (h : EngineInv s) (hh : s.host = ⟨d + 1, .wait gaps⟩ :: rest) (hq : s.queue = m :: q)
    (hnext : ∀ t, EngineInv t → t.host = ⟨d, .wait gaps⟩ :: rest → t.queue = q → ComesToIdle rest t) :
    ComesToIdle rest s := by
  have hs := step_delayed hh (by simp [hq])
  have hcounted : EngineInv (setHost (⟨d, .wait gaps⟩ :: rest) s) := h.congr rfl
  obtain ⟨hqueue, hhost⟩ := hcounted.engineStep_queue_host hq
  exact (hnext _ (engineInvariantKept s _ h hs) hhost hqueue).of_step hs

/-- By induction on Q: with Q empty the poll leaves the loop; otherwise a delay begins once the gaps have run out, if not
before, and in a delay the engine takes a micro-step from Q. -/
theorem comesToIdle_of_wait {s : State} {d : Nat} {gaps : List Nat} {rest : List HostEvent} (h : EngineInv s)
    (hh : s.host = ⟨d, .wait gaps⟩ :: rest) : ComesToIdle rest s := by
  induction hq : s.queue generalizing s d gaps with
  | nil =>
    have hidle : s.status.busy = false := by simpa [hq] using h.busy_iff
    have hs := step_wait ⟨d, hh, .inr hq⟩
    rw [waitTurn_idle (s := setHost rest s) gaps hidle, pollStatus_eq] at hs
    exact ⟨1, _, run_succ hs, rfl, hidle⟩
  | cons m q ih =>
    have hbusy : s.status.busy = true := h.busy_iff.mpr (by simp [hq])
    induction gaps generalizing s d with
    | nil =>
      cases d with
      | succ d => exact .of_delayed h hh hq fun _ => ih
      | zero =>
        have hs := step_wait ⟨0, hh, .inl rfl⟩
        rw [waitTurn_busy_last (s := setHost rest s) hbusy, pollStatus_eq] at hs
        have hpolled := engineInvariantKept s _ h hs
        exact .of_step (.of_delayed (d := q.length) (gaps := []) hpolled (by simp [hq]) hq fun _ => ih) hs
    | cons g gs ihg =>
      cases d with
      | succ d => exact .of_delayed h hh hq fun _ => ih
      | zero =>
        have hs := step_wait ⟨0, hh, .inl rfl⟩
        rw [waitTurn_busy_gap (s := setHost rest s) g gs hbusy, pollStatus_eq] at hs
        exact .of_step (ihg (engineInvariantKept s _ h hs) rfl hq hbusy) hs

/-- Settles O25: `comesToIdle_of_wait`. -/
theorem waitTerminates : Obligations.WaitTerminates := fun _ _ _ _ h hh => comesToIdle_of_wait h hh

end Sys2Proof.Machine

/-! SUPPORT. The laws of field arithmetic (40_gf_sbox.md R120 to R126). fmul is linear in each operand and commutes with
xtime, and every byte is made of 0x01 by xtime and xor, so the laws follow from the case of 0x01. -/

namespace Sys2Proof.Machine

/-! ## Linearity -/

theorem xtime_eq_xor (b : Byte) : xtime b = b <<< 1 ^^^ if b.getLsbD 7 then 0x1B else 0 := by
  unfold xtime
  split <;> simp

/-- The terms that two bits select add up to the term their sum selects. -/
theorem select_xor (x y : Bool) (a : Byte) :
    (if x ^^ y then a else 0) = (if x then a else 0) ^^^ if y then a else 0 := by
  cases x <;> cases y <;> simp

theorem xtime_xor (a b : Byte) : xtime (a ^^^ b) = xtime a ^^^ xtime b := by
  simp only [xtime_eq_xor, BitVec.shiftLeft_xor_distrib, BitVec.getLsbD_xor, select_xor]
  ac_rfl

theorem fmulLoop_succ (n : Nat) (a b r : Byte) :
    fmulLoop (n + 1) a b r = fmulLoop n (xtime a) (b >>> 1) (r ^^^ if b.getLsbD 0 then a else 0) := by
  rw [fmulLoop]
  congr 1
  split
  · rfl
  · exact BitVec.xor_zero.symm

theorem fmulLoop_xor_right (n : Nat) (a b c r r' : Byte) :
    fmulLoop n a (b ^^^ c) (r ^^^ r') = fmulLoop n a b r ^^^ fmulLoop n a c r' := by
  induction n generalizing a b c r r' with
  | zero => rfl
  | succ n ih =>
    simp only [fmulLoop_succ, BitVec.ushiftRight_xor_distrib, BitVec.getLsbD_xor, select_xor, ← ih]
    congr 1
    ac_rfl

theorem fmulLoop_xor_left (n : Nat) (a a' b r r' : Byte) :
    fmulLoop n (a ^^^ a') b (r ^^^ r') = fmulLoop n a b r ^^^ fmulLoop n a' b r' := by
  induction n generalizing a a' b r r' with
  | zero => rfl
  | succ n ih =>
    simp only [fmulLoop_succ, xtime_xor, ← ih]
    congr 1
    split
    · ac_rfl
    · simp

theorem fmulLoop_xtime (n : Nat) (a b r : Byte) : fmulLoop n (xtime a) b (xtime r) = xtime (fmulLoop n a b r) := by
  induction n generalizing a b r with
  | zero => rfl
  | succ n ih =>
    simp only [fmulLoop, ← ih]
    split
    · rw [xtime_xor]
    · rfl

theorem fmul_xor_right (a b c : Byte) : fmul a (b ^^^ c) = fmul a b ^^^ fmul a c := fmulLoop_xor_right 8 a b c 0 0

theorem fmul_xor_left (a b c : Byte) : fmul (a ^^^ b) c = fmul a c ^^^ fmul b c := fmulLoop_xor_left 8 a b c 0 0

theorem fmul_xtime_left (a b : Byte) : fmul (xtime a) b = xtime (fmul a b) := fmulLoop_xtime 8 a b 0

@[simp] theorem fmul_zero (a : Byte) : fmul a 0 = 0 := by simpa using fmul_xor_right a 0 0

@[simp] theorem zero_fmul (a : Byte) : fmul 0 a = 0 := by simpa using fmul_xor_left 0 0 a

/-! ## Every byte is made of 0x01 by xtime and xor -/

@[simp] theorem one_fmul (b : Byte) : fmul 1 b = b := by
  revert b
  decide

/-- The loop of fmul builds its result from its operands by xtime and xor. -/
theorem fmulLoop_induction {P : Byte → Prop} (hxtime : ∀ a, P a → P (xtime a))
    (hxor : ∀ a b, P a → P b → P (a ^^^ b)) (n : Nat) (b : Byte) {a r : Byte} (ha : P a) (hr : P r) :
    P (fmulLoop n a b r) := by
  induction n generalizing a b r with
  | zero => exact hr
  | succ n ih =>
    refine ih _ (hxtime a ha) ?_
    split
    · exact hxor r a hr ha
    · exact hr

/-- A byte `b` is `fmul 1 b`, which the loop builds from 0x01 and from 0x00, 0x01 xor 0x01. -/
theorem byte_induction {P : Byte → Prop} (hone : P 1) (hxtime : ∀ a, P a → P (xtime a))
    (hxor : ∀ a b, P a → P b → P (a ^^^ b)) (b : Byte) : P b :=
  one_fmul b ▸ fmulLoop_induction hxtime hxor 8 b hone (hxor 1 1 hone hone)

/-! ## The laws (R123) -/

@[simp] theorem fmul_one (a : Byte) : fmul a 1 = a := by
  induction a using byte_induction with
  | hone => exact one_fmul 1
  | hxtime a ih => rw [fmul_xtime_left, ih]
  | hxor a b iha ihb => rw [fmul_xor_left, iha, ihb]

theorem fmul_xtime_right (a b : Byte) : fmul a (xtime b) = xtime (fmul a b) := by
  induction a using byte_induction with
  | hone => rw [one_fmul, one_fmul]
  | hxtime a ih => rw [fmul_xtime_left, fmul_xtime_left, ih]
  | hxor a a' ih ih' => rw [fmul_xor_left, fmul_xor_left, ih, ih', xtime_xor]

theorem fmul_comm (a b : Byte) : fmul a b = fmul b a := by
  induction a using byte_induction with
  | hone => rw [one_fmul, fmul_one]
  | hxtime a ih => rw [fmul_xtime_left, fmul_xtime_right, ih]
  | hxor a a' ih ih' => rw [fmul_xor_left, fmul_xor_right, ih, ih']

theorem fmul_assoc (a b c : Byte) : fmul (fmul a b) c = fmul a (fmul b c) := by
  induction a using byte_induction with
  | hone => rw [one_fmul, one_fmul]
  | hxtime a ih => simp only [fmul_xtime_left, ih]
  | hxor a a' ih ih' => simp only [fmul_xor_left, ih, ih']

/-- An inverse is unique: b' = (a b) b' = b (a b') = b. -/
theorem eq_of_fmul_eq_one {a b b' : Byte} (h : fmul a b = 1) (h' : fmul a b' = 1) : b' = b := calc
  b' = fmul (fmul a b) b' := by rw [h, one_fmul]
  _ = fmul (fmul b a) b' := by rw [fmul_comm a b]
  _ = fmul b (fmul a b') := fmul_assoc b a b'
  _ = b := by rw [h', fmul_one]

/-! ## The powers of 0x03 (R123) -/

theorem powerOf3_add (m n : Nat) : powerOf3 (m + n) = fmul (powerOf3 m) (powerOf3 n) := by
  induction n with
  | zero => exact (fmul_one _).symm
  | succ n ih => rw [Nat.add_succ, powerOf3, ih, fmul_assoc, powerOf3]

theorem powerOf3_eq_iterate (k : Nat) : powerOf3 k = (fun a => fmul a 3)^[k] 1 := by
  induction k with
  | zero => rfl
  | succ k ih => rw [powerOf3, ih, Function.iterate_succ_apply']

theorem powerOf3_255 : powerOf3 255 = 1 := by decide +kernel

theorem powerOf3_ne_one_of_mem_properDivisors : ∀ m ∈ Nat.properDivisors 255, powerOf3 m ≠ 1 := by decide +kernel

/-- The cycle of the powers has length 255: that length divides 255 and is none of its proper divisors. -/
theorem minimalPeriod_fmul_three : Function.minimalPeriod (fun a => fmul a 3) 1 = 255 := by
  have hdvd : Function.minimalPeriod (fun a => fmul a 3) 1 ∣ 255 :=
    Function.IsPeriodicPt.minimalPeriod_dvd ((powerOf3_eq_iterate 255).symm.trans powerOf3_255)
  by_contra hne
  have hlt := lt_of_le_of_ne (Nat.le_of_dvd (by decide) hdvd) hne
  refine powerOf3_ne_one_of_mem_properDivisors _ (Nat.mem_properDivisors.mpr ⟨hdvd, hlt⟩) ?_
  rw [powerOf3_eq_iterate]
  exact Function.isPeriodicPt_minimalPeriod _ _

theorem powerOf3_injOn : Set.InjOn powerOf3 (Set.Iio 255) := by
  rw [funext powerOf3_eq_iterate, ← minimalPeriod_fmul_three]
  exact Function.iterate_injOn_Iio_minimalPeriod

theorem fmul_powerOf3_sub {k : Nat} (h : k ≤ 255) : fmul (powerOf3 k) (powerOf3 (255 - k)) = 1 := by
  rw [← powerOf3_add, Nat.add_sub_cancel' h, powerOf3_255]

theorem powerOf3_ne_zero {k : Nat} (h : k ≤ 255) : powerOf3 k ≠ 0 := by
  intro h0
  have h1 := fmul_powerOf3_sub h
  rw [h0, zero_fmul] at h1
  exact absurd h1 (by decide)

/-- The 255 powers from 0x03^0 to 0x03^254 are different non-zero bytes, so they are all of them. -/
theorem exists_powerOf3_lt {a : Byte} (h : a ≠ 0) : ∃ k < 255, powerOf3 k = a := by
  have hmaps : Set.MapsTo (fun k => (powerOf3 k).toNat) (Finset.range 255) (Finset.Icc 1 255) := by
    intro k hk
    have hk' : k < 255 := by simpa using hk
    have hpos : (powerOf3 k).toNat ≠ 0 := fun h0 => powerOf3_ne_zero hk'.le (BitVec.eq_of_toNat_eq h0)
    have hlt := (powerOf3 k).isLt
    simp only [Finset.coe_Icc, Set.mem_Icc]
    omega
  have hinj : Set.InjOn (fun k => (powerOf3 k).toNat) (Finset.range 255) := by
    rw [Finset.coe_range]
    exact fun i hi j hj hij => powerOf3_injOn hi hj (BitVec.eq_of_toNat_eq hij)
  have hsurj := Finset.surjOn_of_injOn_of_card_le _ hmaps hinj (by simp)
  have ha : a.toNat ∈ Finset.Icc 1 255 := by
    have hpos : a.toNat ≠ 0 := fun h0 => h (BitVec.eq_of_toNat_eq h0)
    have hlt := a.isLt
    simp only [Finset.mem_Icc]
    omega
  obtain ⟨k, hk, hka⟩ := hsurj ha
  exact ⟨k, by simpa using hk, BitVec.eq_of_toNat_eq hka⟩

theorem exists_powerOf3 {a : Byte} (h : a ≠ 0) : ∃ k : Fin 256, 1 ≤ k.val ∧ powerOf3 k.val = a := by
  obtain ⟨k, hk, rfl⟩ := exists_powerOf3_lt h
  cases k with
  | zero => exact ⟨255, by decide, powerOf3_255⟩
  | succ k => exact ⟨⟨k + 1, by omega⟩, by simp, rfl⟩

theorem exists_fmul_eq_one {a : Byte} (h : a ≠ 0) : ∃ b, fmul a b = 1 := by
  obtain ⟨k, hk, rfl⟩ := exists_powerOf3_lt h
  exact ⟨_, fmul_powerOf3_sub hk.le⟩

/-- Settles O49: the laws by linearity, inverses from the cycle of the powers of 0x03. -/
theorem fieldLaws : Obligations.FieldLaws := by
  refine ⟨fmul_comm, fmul_assoc, fmul_xor_right, fmul_one, fmul_zero, fun a ha => ?_, by decide,
    fun _ => exists_powerOf3, powerOf3_255⟩
  obtain ⟨b, hb⟩ := exists_fmul_eq_one ha
  exact ⟨b, hb, fun _ => eq_of_fmul_eq_one hb⟩

/-! ## The constant multiplier (R124, R125) -/

theorem fmul_two (x : Byte) : fmul x 2 = xtime x := by
  rw [show (2 : Byte) = xtime 1 by decide, fmul_xtime_right, fmul_one]

theorem fmul_four (x : Byte) : fmul x 4 = xtime (xtime x) := by
  rw [show (4 : Byte) = xtime 2 by decide, fmul_xtime_right, fmul_two]

theorem fmul_eight (x : Byte) : fmul x 8 = xtime (xtime (xtime x)) := by
  rw [show (8 : Byte) = xtime 4 by decide, fmul_xtime_right, fmul_four]

/-- Each constant is a xor of 0x01, 0x02, 0x04 and 0x08. -/
theorem gmul_eq_fmul (x : Byte) (c : GfConst) : gmul x c = fmul x (constValue c) := by
  cases c with
  | c0 => exact (fmul_zero x).symm
  | c1 => exact (fmul_one x).symm
  | c2 => exact (fmul_two x).symm
  | c3 =>
    rw [show constValue .c3 = 2 ^^^ 1 from rfl, fmul_xor_right, fmul_two, fmul_one]
    rfl
  | c9 =>
    rw [show constValue .c9 = 8 ^^^ 1 from rfl, fmul_xor_right, fmul_eight, fmul_one]
    rfl
  | c11 =>
    rw [show constValue .c11 = 8 ^^^ 2 ^^^ 1 from rfl, fmul_xor_right, fmul_xor_right, fmul_eight, fmul_two, fmul_one]
    rfl
  | c13 =>
    rw [show constValue .c13 = 8 ^^^ 4 ^^^ 1 from rfl, fmul_xor_right, fmul_xor_right, fmul_eight, fmul_four, fmul_one]
    rfl
  | c14 =>
    rw [show constValue .c14 = 8 ^^^ 4 ^^^ 2 from rfl, fmul_xor_right, fmul_xor_right, fmul_eight, fmul_four, fmul_two]
    rfl

theorem gfConstOf_eq_some_iff (b : Byte) (c : GfConst) : gfConstOf b = some c ↔ b = constValue c := by
  constructor
  · intro h
    unfold gfConstOf at h
    split at h <;> cases h <;> exact BitVec.eq_of_toNat_eq ‹_›
  · rintro rfl
    cases c <;> rfl

/-- Settles O48: `gmul_eq_fmul` and `gfConstOf_eq_some_iff`. -/
theorem constantMultiplierIsFieldProduct : Obligations.ConstantMultiplierIsFieldProduct :=
  ⟨gmul_eq_fmul, gfConstOf_eq_some_iff, rfl, rfl⟩

end Sys2Proof.Machine

/-! SUPPORT. The generated tables (40_gf_sbox.md R129 to R140): GenSbox walks through the powers of 0x03 with p and q
inverse to each other, so it writes at every non-zero byte the affine transform of that byte's inverse. -/

namespace Sys2Proof.Machine

/-- The entry at x is the affine transform of the inverse of x, if x has one. -/
def AffineInverseAt (t : Table) (x : Byte) : Prop := ∀ y, fmul x y = 1 → look t x = affine y

/-- An iteration of GenSbox writes the affine transform of the inverse at one place and leaves the others. -/
theorem affineInverseAt_put {t : Table} {x p q : Byte} (hpq : fmul p q = 1) (h : x = p ∨ AffineInverseAt t x) :
    AffineInverseAt (put t p (affine q)) x := by
  intro y hy
  by_cases hpx : p = x
  · subst hpx
    rw [look_put_self, eq_of_fmul_eq_one hpq hy]
  · rw [look_put_other _ _ hpx]
    exact h.resolve_left (Ne.symm hpx) y hy

theorem xor_xtime_eq_fmul (p : Byte) : p ^^^ xtime p = fmul p 3 := by
  rw [show (3 : Byte) = 1 ^^^ 2 by decide, fmul_xor_right, fmul_one, fmul_two]

/-- The loop of GenSbox keeps p and q inverse to each other. -/
theorem fmul_genSbox_pair {p q : Byte} (hpq : fmul p q = 1) : fmul (fmul p 3) (fmul q 0xF6) = 1 := calc
  fmul (fmul p 3) (fmul q 0xF6) = fmul (fmul p q) (fmul 3 0xF6) := by
    rw [fmul_assoc, ← fmul_assoc 3, fmul_comm 3 q, fmul_assoc q, ← fmul_assoc]
  _ = 1 := by
    rw [hpq]
    decide

/-- The loop of GenSbox with n iterations to go has the entry at x right at its end if it was right before, or if p
comes to x in one of these iterations and not to 0x01, where the loop stops, before. -/
theorem affineInverseAt_genSboxLoop {n : Nat} {p q x : Byte} {t : Table} (hpq : fmul p q = 1)
    (h : AffineInverseAt t x ∨
      ∃ k < n, x = fmul p (powerOf3 (k + 1)) ∧ ∀ j < k, fmul p (powerOf3 (j + 1)) ≠ 1) :
    AffineInverseAt (genSboxLoop n p q t) x := by
  induction n generalizing p q t with
  | zero => exact h.resolve_right (by simp)
  | succ n ih =>
    have hpq' := fmul_genSbox_pair hpq
    have hpow (k : Nat) : fmul p (powerOf3 (k + 1)) = fmul (fmul p 3) (powerOf3 k) := by
      rw [powerOf3, fmul_comm (powerOf3 k), fmul_assoc]
    have hpow1 : fmul p (powerOf3 1) = fmul p 3 := by rw [hpow, powerOf3, fmul_one]
    have hkeep {t' : Table} (ht : AffineInverseAt t' x) :
        AffineInverseAt (if fmul p 3 = 1 then t' else genSboxLoop n (fmul p 3) (fmul q 0xF6) t') x := by
      split
      · exact ht
      · exact ih hpq' (.inl ht)
    simp only [genSboxLoop, xor_xtime_eq_fmul]
    rcases h with h | ⟨k, hk, hx, hstop⟩
    · exact hkeep (affineInverseAt_put hpq' (.inr h))
    · cases k with
      | zero => exact hkeep (affineInverseAt_put hpq' (.inl (hx.trans hpow1)))
      | succ k =>
        have hp : fmul p 3 ≠ 1 := hpow1 ▸ hstop 0 (by omega)
        rw [if_neg hp]
        refine ih hpq' (.inr ⟨k, by omega, hx.trans (hpow _), fun j hj => ?_⟩)
        rw [← hpow]
        exact hstop (j + 1) (by omega)

/-- The loop of GenSbox comes to every non-zero byte: the least k with 0x03^k = x has no 0x03^j = 0x01 before it, or a
smaller exponent would do. -/
theorem affineInverseAt_genSbox {x : Byte} (hx : x ≠ 0) : AffineInverseAt genSbox x := by
  have hex : ∃ k < 255, powerOf3 (k + 1) = x := by
    obtain ⟨k, hk, rfl⟩ := exists_powerOf3 hx
    exact ⟨k.val - 1, by omega, by rw [Nat.sub_add_cancel hk]⟩
  have hstop : ∀ j < Nat.find hex, powerOf3 (j + 1) ≠ 1 := by
    intro j hj h1
    obtain ⟨hlt, hfind⟩ := Nat.find_spec hex
    refine Nat.find_min hex (m := Nat.find hex - (j + 1)) (by omega) ⟨by omega, ?_⟩
    calc powerOf3 (Nat.find hex - (j + 1) + 1)
      _ = fmul (powerOf3 (Nat.find hex - (j + 1) + 1)) (powerOf3 (j + 1)) := by rw [h1, fmul_one]
      _ = powerOf3 (Nat.find hex + 1) := by
        rw [← powerOf3_add]
        congr 1
        omega
      _ = x := hfind
  obtain ⟨hlt, hfind⟩ := Nat.find_spec hex
  intro y hy
  rw [genSbox, look_put_other _ _ (Ne.symm hx)]
  refine affineInverseAt_genSboxLoop (one_fmul 1) (.inr ⟨_, hlt, ?_, ?_⟩) y hy
  · rw [one_fmul, hfind]
  · simpa only [one_fmul] using hstop

theorem look_genSbox_eq_affine {x y : Byte} (h : fmul x y = 1) : look genSbox x = affine y := by
  refine affineInverseAt_genSbox ?_ y h
  rintro rfl
  exact absurd ((zero_fmul y).symm.trans h) (by decide)

theorem look_genSbox_zero : look genSbox 0 = 0x63 := look_put_self _ _ _

/-- Settles O50: `look_genSbox_eq_affine`. -/
theorem sboxIsAffineOfTheInverse : Obligations.SboxIsAffineOfTheInverse :=
  ⟨fun _ _ => look_genSbox_eq_affine, look_genSbox_zero, by decide⟩

theorem look_invSboxTable_look_genSbox (x : Byte) : look invSboxTable (look genSbox x) = x :=
  look_genInv (fun _ _ h => look_genSbox_injective h) _ x

theorem look_genSbox_look_invSboxTable (y : Byte) : look genSbox (look invSboxTable y) = y := by
  obtain ⟨x, rfl⟩ := look_genSbox_surjective y
  rw [look_invSboxTable_look_genSbox]

/-- No byte is the affine transform of its inverse or the complement of that (40_gf_sbox.md R135). -/
theorem fmul_affine_ne_one (y : Byte) : fmul (affine y) y ≠ 1 ∧ fmul (affine y ^^^ 0xFF) y ≠ 1 := by
  revert y
  decide +kernel

theorem look_genSbox_ne (x : Byte) : look genSbox x ≠ x ∧ look genSbox x ≠ x ^^^ 0xFF := by
  by_cases hx : x = 0
  · subst hx
    rw [look_genSbox_zero]
    decide
  · obtain ⟨y, hy⟩ := exists_fmul_eq_one hx
    obtain ⟨hfix, hcompl⟩ := fmul_affine_ne_one y
    rw [look_genSbox_eq_affine hy]
    refine ⟨fun h => hfix (by rw [h, hy]), fun h => hcompl ?_⟩
    rw [h, BitVec.xor_assoc, BitVec.xor_self, BitVec.xor_zero, hy]

/-- Settles O51: GenInv of a permutation is its inverse, and the transform has no fixed point. -/
theorem inverseTableUndoesForwardTable : Obligations.InverseTableUndoesForwardTable :=
  ⟨look_invSboxTable_look_genSbox, look_genSbox_look_invSboxTable, look_genSbox_ne⟩

end Sys2Proof.Machine

/-! SUPPORT. The engine's run of an accepted command: generating the tables in front of the body comes to the same as
accepting the command with the tables already generated (43_driver.md R222 to R227). -/

namespace Sys2Proof.Machine

/-! ## An accepted command with a queue -/

/-- The state after the acceptance of a command with the fields `f`, with `q` as its queue (R222). -/
def acceptedWith (f : CmdFields) (q : List MicroStep) (s : State) : State :=
  { s with
    status := { s.status with
      busy := !q.isEmpty, done := q.isEmpty, err := .none, keyValid := s.status.keyValid && f.op != opExpandKey }
    fsm := { s.fsm with op := f.op, phase := if q.isEmpty then .idle else s.fsm.phase }
    latch := f
    queue := q }

theorem accept_eq_acceptedWith (f : CmdFields) (body : List MicroStep) (s : State) :
    accept f body s = acceptedWith f (genPrefix f.op s.status ++ body) s := by
  rw [accept_eq]
  cases genPrefix f.op s.status ++ body <;> rfl

/-- With nothing in its queue a command other than EXPAND_KEY is completed. -/
theorem drain_acceptedWith_nil {i : Instr} (h : i.fields.op ≠ opExpandKey) (s : State) :
    drain (acceptedWith i.fields [] s) = completed i s := by
  rw [drain_idle (s := acceptedWith i.fields [] s) rfl]
  simp [acceptedWith, completed, h]

theorem exec_of_accepted {i : Instr} {s : State} (hidle : s.status.busy = false) (hcheck : acceptanceError s i = none) :
    exec i s = .next (acceptedWith i.fields (genPrefix i.fields.op s.status ++ bodyOf i) s) := by
  rw [exec_eq_presentCommand, hcheck, presentCommand_accepted hidle, accept_eq_acceptedWith]

/-! ## The engine's run -/

/-- What FSM.PHASE shows before a micro-step does not matter. -/
theorem engineStep_setPhase {s : State} (h : s.queue ≠ []) (p : Phase) :
    engineStep (setPhase p s) = engineStep s := by
  obtain ⟨m, rest, hq⟩ := List.exists_cons_of_ne_nil h
  have hreads : readsInverse m.op (setPhase p s) = readsInverse m.op s := rfl
  have hstop : defensiveStop (setPhase p s) = defensiveStop s := rfl
  have hshow : showStep m (setPhase p s) = showStep m s := by
    rw [showStep_fsm, showStep_fsm]
    rfl
  simp only [engineStep, setPhase_queue, setPhase_status, hq, hreads, hstop, hshow]

theorem drain_setPhase {s : State} (h : s.queue ≠ []) (p : Phase) : drain (setPhase p s) = drain s := by
  obtain ⟨m, rest, hq⟩ := List.exists_cons_of_ne_nil h
  simp only [drain, setPhase_queue, hq, List.length_cons, engineRun_succ, engineStep_setPhase h]

/-- When the head of the queue has been performed, the rest of the queue is to be drained, if any (R224, R227). -/
theorem drain_finishStep (f : CmdFields) (m : MicroStep) (rest : List MicroStep) (p : Phase) (t : State) :
    drain (finishStep rest (setPhase p (acceptedWith f (m :: rest) t))) = drain (acceptedWith f rest t) := by
  cases rest with
  | nil =>
    have hdone : finishStep [] (setPhase p (acceptedWith f [m] t)) = acceptedWith f [] t := by
      simp [finishStep_eq, acceptedWith, setPhase]
    rw [hdone]
  | cons m' q =>
    have hrest : finishStep (m' :: q) (setPhase p (acceptedWith f (m :: m' :: q) t)) =
        setPhase p (acceptedWith f (m' :: q) t) := rfl
    rw [hrest, drain_setPhase (by simp [acceptedWith])]

/-- A micro-step without a round number that makes `t` of `s`, whatever command is running, is taken from the queue. -/
theorem drain_acceptedWith_cons {f : CmdFields} {m : MicroOp} {rest : List MicroStep} {s t : State}
    (hr : readsInverse m (acceptedWith f (plainStep m :: rest) s) = false ∨ s.status.invValid = true)
    (hm : ∀ p, perform m (setPhase p (acceptedWith f (plainStep m :: rest) s)) =
      setPhase p (acceptedWith f (plainStep m :: rest) t)) :
    drain (acceptedWith f (plainStep m :: rest) s) = drain (acceptedWith f rest t) := by
  have hstep : engineStep (acceptedWith f (plainStep m :: rest) s) =
      finishStep rest (setPhase (phaseOf m) (acceptedWith f (plainStep m :: rest) t)) := by
    rw [engineStep_performs rfl hr, ← hm]
    rfl
  rw [drain_step rfl (by rw [hstep, finishStep_eq]), hstep, drain_finishStep]

/-! ## The table generation -/

/-- The state with the tables generated that a command with this opcode needs (R226). -/
def withNeeded (op : BitVec 5) (s : State) : State :=
  if needsInv op then withTables s else if needsFwd op then withSbox s else s

theorem withSbox_of_valid {s : State} (h : TablesOk s) (hv : s.status.sboxValid = true) : withSbox s = s := by
  unfold withSbox
  rw [← h.sbox_content hv, ← hv]

theorem withTables_of_valid {s : State} (h : TablesOk s) (hv : s.status.invValid = true) :
    withTables s = withSbox s := by
  unfold withTables withSbox
  rw [← h.inv_content hv, ← hv]

theorem stepGenInv_of_genSbox {s : State} (h : s.sbox = genSbox) :
    stepGenInv s = onStatus statusInvValid (setInvSbox invSboxTable s) := by
  rw [stepGenInv, h, genInv_genSbox]

/-- GEN_FWD, where it is needed, comes to the same as having the forward table from the start. -/
theorem drain_genFwd {s : State} (h : TablesOk s) (f : CmdFields) (q : List MicroStep) :
    drain (acceptedWith f ((if !s.status.sboxValid then [plainStep .genFwd] else []) ++ q) s) =
      drain (acceptedWith f q (withSbox s)) := by
  cases hv : s.status.sboxValid with
  | true =>
    rw [withSbox_of_valid h hv]
    rfl
  | false => exact drain_acceptedWith_cons (.inl rfl) fun _ => rfl

/-- GEN_INV, where it is needed, with the forward table generated before. -/
theorem drain_genInv {s : State} (h : TablesOk s) (f : CmdFields) (q : List MicroStep) :
    drain (acceptedWith f ((if !s.status.invValid then [plainStep .genInv] else []) ++ q) (withSbox s)) =
      drain (acceptedWith f q (withTables s)) := by
  cases hv : s.status.invValid with
  | true =>
    rw [withTables_of_valid h hv]
    rfl
  | false =>
    refine drain_acceptedWith_cons (.inl rfl) fun p => ?_
    refine (stepGenInv_of_genSbox (s := setPhase p (acceptedWith f _ (withSbox s))) rfl).trans ?_
    simp only [acceptedWith, withTables, withSbox, onStatus, setInvSbox, setPhase, statusInvValid]

/-- Generating the tables in front of a queue comes to the same as having them from the start. -/
theorem drain_genPrefix {s : State} (h : TablesOk s) (f : CmdFields) (q : List MicroStep) :
    drain (acceptedWith f (genPrefix f.op s.status ++ q) s) = drain (acceptedWith f q (withNeeded f.op s)) := by
  cases hi : needsInv f.op with
  | true =>
    simp only [genPrefix, withNeeded, hi, Bool.or_true, Bool.true_and, List.append_assoc, drain_genFwd h,
      drain_genInv h, if_true]
  | false =>
    cases hf : needsFwd f.op with
    | true => simpa [genPrefix, withNeeded, hi, hf] using drain_genFwd h f q
    | false => simp [genPrefix, withNeeded, hi, hf]

/-- A command accepted runs as if the tables it needs were generated before (R222, R226). -/
theorem exec_drain_withNeeded {i : Instr} {s : State} (htables : TablesOk s) (hidle : s.status.busy = false)
    (hcheck : acceptanceError s i = none) :
    ∃ t, exec i s = .next t ∧ drain t = drain (acceptedWith i.fields (bodyOf i) (withNeeded i.fields.op s)) :=
  ⟨_, exec_of_accepted hidle hcheck, drain_genPrefix htables _ _⟩

/-! ## PRIM as a body (40_gf_sbox.md R128, R143, R144) -/

theorem stepPrim_sboxLookup {x : Byte} {s : State} (h : s.latch = (Instr.sboxLookup x).fields) :
    stepPrim s = setResult (zextByte (look s.sbox x)) s := by
  simp only [stepPrim, primSboxLookup, h]
  rfl

theorem stepPrim_invSboxLookup {x : Byte} {s : State} (h : s.latch = (Instr.invSboxLookup x).fields) :
    stepPrim s = setResult (zextByte (look s.invSbox x)) s := by
  simp only [stepPrim, primInvSboxLookup, h]
  rfl

/-- With a constant of the set PRIM of GF_MUL is the field product (R125, R128). -/
theorem stepPrim_gfMul {x c : Byte} {s : State} (h : s.latch = (Instr.gfMul x c).fields)
    (hc : (gfConstOf c).isSome = true) : stepPrim s = setResult (zextByte (fmul x c)) s := by
  obtain ⟨k, hk⟩ := Option.isSome_iff_exists.mp hc
  have hprim : stepPrim s = primGfMul s := by
    simp only [stepPrim, h]
    rfl
  have hconst : gfConstOf s.latch.c = some k := by rw [h, ← hk]; rfl
  rw [hprim, primGfMul, hconst, h]
  show setResult (zextByte (gmul x k)) s = _
  rw [gmul_eq_fmul, ← (gfConstOf_eq_some_iff c k).mp hk]

/-- PRIM as the body of a command writes RESULT and completes the command (43_driver.md R224, R227). -/
theorem drain_prim {i : Instr} {s : State} {v : Word} (hop : i.fields.op ≠ opExpandKey)
    (hinv : i.fields.op ≠ opInvSboxLookup ∨ s.status.invValid = true)
    (hprim : ∀ t : State, t.latch = i.fields → t.sbox = s.sbox → t.invSbox = s.invSbox →
      stepPrim t = setResult v t) :
    drain (acceptedWith i.fields [plainStep .prim] s) = completed i (setResult v s) := by
  have hr : readsInverse .prim (acceptedWith i.fields [plainStep .prim] s) = false ∨ s.status.invValid = true :=
    hinv.imp_left beq_false_of_ne
  rw [drain_acceptedWith_cons (t := setResult v s) hr fun p => hprim (setPhase p _) rfl rfl rfl,
    drain_acceptedWith_nil hop]

/-! ## The commands -/

theorem withTables_invSbox (s : State) : (withTables s).invSbox = invSboxTable := by
  simp only [withTables]

theorem completed_withTables (i : Instr) (s : State) : completed i (withTables s) = withTables (completed i s) := by
  simp only [completed, withTables]

/-- Settles O32: GEN_TABLES has no body. -/
theorem genTablesGeneratesBothTables : Obligations.GenTablesGeneratesBothTables := by
  intro s htables hidle
  obtain ⟨t, hexec, hdrain⟩ := exec_drain_withNeeded (i := .genTables) htables hidle rfl
  have hbody : drain (acceptedWith Instr.genTables.fields [] (withTables s)) = completed .genTables (withTables s) :=
    drain_acceptedWith_nil (by decide) _
  exact ⟨t, hexec, hdrain.trans (hbody.trans (completed_withTables _ s))⟩

/-- Settles O33: PRIM finds the forward table generated. -/
theorem sboxLookupResult : Obligations.SboxLookupResult := by
  intro x s htables hidle
  obtain ⟨t, hexec, hdrain⟩ := exec_drain_withNeeded (i := .sboxLookup x) htables hidle rfl
  have hbody : drain (acceptedWith (Instr.sboxLookup x).fields [plainStep .prim] (withSbox s)) =
      completed (.sboxLookup x) (setResult (zextByte (look genSbox x)) (withSbox s)) := by
    refine drain_prim (by decide : opSboxLookup ≠ opExpandKey) (.inl (by decide : opSboxLookup ≠ opInvSboxLookup))
      ?_
    intro u hlatch hsbox _
    rw [stepPrim_sboxLookup hlatch, hsbox]
    rfl
  exact ⟨t, hexec, hdrain.trans hbody⟩

/-- Settles O34: PRIM finds the inverse table generated. -/
theorem invSboxLookupResult : Obligations.InvSboxLookupResult := by
  intro x s htables hidle
  obtain ⟨t, hexec, hdrain⟩ := exec_drain_withNeeded (i := .invSboxLookup x) htables hidle rfl
  have hbody : drain (acceptedWith (Instr.invSboxLookup x).fields [plainStep .prim] (withTables s)) =
      completed (.invSboxLookup x) (setResult (zextByte (look invSboxTable x)) (withTables s)) := by
    refine drain_prim (by decide : opInvSboxLookup ≠ opExpandKey) (.inr rfl) ?_
    intro u hlatch _ hinvSbox
    rw [stepPrim_invSboxLookup hlatch, hinvSbox, withTables_invSbox]
  refine ⟨t, hexec, hdrain.trans (hbody.trans ?_)⟩
  simp only [completed, setResult, withTables, zextByte]

/-- Settles O35: GF_MUL generates no table, and its constant passed the check of the acceptance. -/
theorem gfMulResult : Obligations.GfMulResult := by
  intro x c s hc hidle
  have hcheck : acceptanceError s (.gfMul x c) = none := if_pos hc
  have hconst := gfConstOf_isSome_of_accepted hcheck rfl
  exact ⟨_, exec_of_accepted hidle hcheck, drain_prim (i := .gfMul x c) (by decide : opGfMul ≠ opExpandKey)
    (.inl (by decide : opGfMul ≠ opInvSboxLookup)) fun u hlatch _ _ => stepPrim_gfMul hlatch hconst⟩

end Sys2Proof.Machine

/-! SUPPORT. The command EXPAND_KEY (41_key_schedule.md R165 to R170): the recurrence, branch by branch, and the run of
KEXP(0) to KEXP(59), which writes the schedule of KEY word by word. -/

namespace Sys2Proof.Machine

/-! ## The recurrence -/

theorem expandKey_keyWord (key : Vector Word 8) {k : Fin 8} {i : Fin 60} (h : i.val = k.val) :
    (expandKey key)[i] = key[k] := by
  have hi : i.val < 8 := by omega
  calc (expandKey key)[i]
    _ = scheduleWord genSbox key (expandKey key) i := expandKey_getElem key i
    _ = key[i.val] := dif_pos hi
    _ = key[k] := by simp only [h, Fin.getElem_fin]

/-- From W[8] on a word is the one eight before it, xor `temp` of the word before it. -/
theorem expandKey_recurrence (key : Vector Word 8) {i p q : Fin 60} (hi : 8 ≤ i.val) (hp : p.val = i.val - 1)
    (hq : q.val = i.val - 8) :
    (expandKey key)[i] = (expandKey key)[q] ^^^ scheduleTemp genSbox i (expandKey key)[p] := by
  have hi' : ¬ i.val < 8 := by omega
  calc (expandKey key)[i]
    _ = scheduleWord genSbox key (expandKey key) i := expandKey_getElem key i
    _ = (expandKey key)[i.val - 8] ^^^ scheduleTemp genSbox i (expandKey key)[i.val - 1] := dif_neg hi'
    _ = (expandKey key)[q] ^^^ scheduleTemp genSbox i (expandKey key)[p] := by simp only [hp, hq, Fin.getElem_fin]

section
variable (t : Table) {i : Fin 60} (prev : Word)

theorem scheduleTemp_of_mod_eight (h8 : i.val % 8 = 0) {j : Fin 10} (hj : j.val = i.val / 8 - 1) :
    scheduleTemp t i prev = subWord t (rotWord prev) ^^^ rconWord j := by
  have hj' : j = ⟨i.val / 8 - 1, by omega⟩ := Fin.ext hj
  rw [hj']
  exact if_pos h8

theorem scheduleTemp_of_mod_four (h8 : i.val % 8 ≠ 0) (h4 : i.val % 4 = 0) :
    scheduleTemp t i prev = subWord t prev :=
  (if_neg h8).trans (if_pos h4)

theorem scheduleTemp_of_not_mod_four (h8 : i.val % 8 ≠ 0) (h4 : i.val % 4 ≠ 0) : scheduleTemp t i prev = prev :=
  (if_neg h8).trans (if_neg h4)

end

/-- Settles O52: the key words, then the recurrence in the three branches of `temp`. -/
theorem scheduleRecurrence : Obligations.ScheduleRecurrence := by
  refine fun key => ⟨fun k i h => expandKey_keyWord key h, fun i p q hi hp hq => ?_⟩
  rw [expandKey_recurrence key hi hp hq]
  refine ⟨fun h8 j hj => ?_, fun h8 h4 => ?_, fun h8 h4 => ?_⟩
  · rw [scheduleTemp_of_mod_eight _ _ h8 hj]
    rfl
  · rw [scheduleTemp_of_mod_four _ _ h8 h4]
  · rw [scheduleTemp_of_not_mod_four _ _ h8 h4]

/-! ## The run of KEXP(0) to KEXP(59) -/

/-- The first `j` words of W are those of the schedule of KEY. -/
def WordsExpanded (j : Nat) (s : State) : Prop := ∀ k : Fin 60, k.val < j → s.w[k] = (expandKey s.key)[k]

theorem wordsExpanded_zero (s : State) : WordsExpanded 0 s := fun _ hk => absurd hk (Nat.not_lt_zero _)

/-- What KEXP(i) writes before KEY_VALID, with the forward table generated (R168). -/
def withKexpWord (i : Fin 60) (s : State) : State :=
  setKidx (BitVec.ofNat 6 i.val) (setW i (scheduleWord genSbox s.key s.w i) s)

theorem wordsExpanded_succ {i : Fin 60} {s : State} (h : WordsExpanded i s) :
    WordsExpanded (i + 1) (withKexpWord i s) :=
  schedule_words_succ h

theorem WordsExpanded.w_eq {s : State} (h : WordsExpanded 60 s) : s.w = expandKey s.key :=
  Vector.ext fun k hk => h ⟨k, hk⟩ hk

theorem stepKexp_of_ne_last {i : Fin 60} {s : State} (hsbox : s.sbox = genSbox) (hi : i.val ≠ 59) :
    stepKexp i s = withKexpWord i s := by
  rw [withKexpWord, ← hsbox]
  exact if_neg hi

theorem stepKexp_last {s : State} (hsbox : s.sbox = genSbox) :
    stepKexp 59 s = onStatus (statusKeyValid true) (withKexpWord 59 s) := by
  rw [withKexpWord, ← hsbox]
  rfl

/-- The state EXPAND_KEY ends in, from a state with the forward table generated (R168 to R170). -/
def keyExpanded (s : State) : State :=
  { completed .expandKey s with
    w := expandKey s.key
    status := { (completed .expandKey s).status with keyValid := true }
    fsm := { (completed .expandKey s).fsm with kidx := 59 } }

/-- The end state does not depend on W and FSM.KIDX before. -/
theorem keyExpanded_withKexpWord (i : Fin 60) (s : State) : keyExpanded (withKexpWord i s) = keyExpanded s := rfl

/-- KEXP(59) writes the last word, sets KEY_VALID and completes the command. -/
theorem engineStep_kexp_last {s : State} (hsbox : s.sbox = genSbox) :
    engineStep (acceptedWith Instr.expandKey.fields [plainStep (.kexp 59)] s) =
      { keyExpanded s with w := (withKexpWord 59 s).w } := by
  have hkexp : stepKexp 59 (setPhase .kexp (acceptedWith Instr.expandKey.fields [plainStep (.kexp 59)] s)) =
      onStatus (statusKeyValid true)
        (setPhase .kexp (acceptedWith Instr.expandKey.fields [plainStep (.kexp 59)] (withKexpWord 59 s))) :=
    stepKexp_last hsbox
  rw [engineStep_performs (m := plainStep (.kexp 59)) rfl (.inl rfl)]
  refine (congrArg (finishStep []) hkexp).trans ?_
  simp [finishStep_eq, acceptedWith, withKexpWord, onStatus, setKidx, setW, setPhase, statusKeyValid, keyExpanded,
    completed]

/-- The end of an EXPAND_KEY whose last word alone is still to be written. -/
theorem drain_kexp_last {s : State} (hsbox : s.sbox = genSbox) (hwords : WordsExpanded 59 s) :
    drain (acceptedWith Instr.expandKey.fields [plainStep (.kexp 59)] s) = keyExpanded s := by
  have hw : (withKexpWord 59 s).w = expandKey s.key := WordsExpanded.w_eq (wordsExpanded_succ (i := 59) hwords)
  have hstep := engineStep_kexp_last hsbox
  rw [hw] at hstep
  rw [drain_step rfl (congrArg State.queue hstep), hstep]
  exact drain_idle rfl

/-- The rest of an EXPAND_KEY from KEXP(j) on, the words before W[j] written. -/
theorem drain_kexpFrom {j : Nat} (hj : j ≤ 59) {s : State} (hsbox : s.sbox = genSbox) (hwords : WordsExpanded j s) :
    drain (acceptedWith Instr.expandKey.fields (kexpFrom j) s) = keyExpanded s := by
  induction hj using Nat.decreasingInduction generalizing s with
  | self => exact drain_kexp_last hsbox hwords
  | of_succ j hj ih =>
    have hj60 : j < 60 := by omega
    have hstep : drain (acceptedWith Instr.expandKey.fields (plainStep (.kexp ⟨j, hj60⟩) :: kexpFrom (j + 1)) s) =
        drain (acceptedWith Instr.expandKey.fields (kexpFrom (j + 1)) (withKexpWord ⟨j, hj60⟩ s)) :=
      drain_acceptedWith_cons (.inl rfl) fun p => stepKexp_of_ne_last hsbox (Nat.ne_of_lt hj)
    have hwords' : WordsExpanded (j + 1) (withKexpWord ⟨j, hj60⟩ s) := wordsExpanded_succ (i := ⟨j, hj60⟩) hwords
    rw [kexpFrom_eq_cons hj60, hstep, ih (s := withKexpWord ⟨j, hj60⟩ s) hsbox hwords', keyExpanded_withKexpWord]

theorem withSbox_sbox (s : State) : (withSbox s).sbox = genSbox := by
  simp only [withSbox]

/-- Settles O45: the forward table is generated first, then the run of all the KEXP. -/
theorem expandKeyResult : Obligations.ExpandKeyResult := by
  intro s htables hidle
  obtain ⟨t, hexec, hdrain⟩ := exec_drain_withNeeded (i := .expandKey) htables hidle rfl
  have hrun : drain (acceptedWith Instr.expandKey.fields (kexpFrom 0) (withSbox s)) = keyExpanded (withSbox s) :=
    drain_kexpFrom (Nat.zero_le _) (withSbox_sbox s) (wordsExpanded_zero _)
  refine ⟨t, hexec, hdrain.trans (hrun.trans ?_)⟩
  simp only [keyExpanded, completed, withSbox]

end Sys2Proof.Machine

/-! SUPPORT. The round transforms as functions of the state matrix (42_round_transforms.md R180 to R202): their cells,
MixColumns and its inverse as products with the matrices of R191 and R192, and what undoes what (R200). -/

namespace Sys2Proof.Machine

/-! ## The cells of a transform -/

@[simp] theorem cell_loadBlock (d : Vector Word 4) (r c : Fin 4) : cell (loadBlock d) r c = byteOf d[c] r :=
  cell_blockOf _ r c

@[simp] theorem unloadBlock_getElem (m : Block) (c : Fin 4) :
    (unloadBlock m)[c] = pack (cell m 0 c) (cell m 1 c) (cell m 2 c) (cell m 3 c) :=
  Vector.getElem_ofFn c.isLt

@[simp] theorem cell_subBytes (t : Table) (m : Block) (r c : Fin 4) : cell (subBytes t m) r c = look t (cell m r c) :=
  cell_blockOf _ r c

@[simp] theorem cell_shiftRows (m : Block) (r c : Fin 4) : cell (shiftRows m) r c = cell m r (c + r) :=
  cell_blockOf _ r c

/-- The column (c + 4 - r) mod 4 is c - r in arithmetic modulo 4 (R189). -/
@[simp] theorem cell_invShiftRows (m : Block) (r c : Fin 4) : cell (invShiftRows m) r c = cell m r (c - r) := by
  have hcol : ∀ r c : Fin 4, Fin.ofNat 4 (c.val + 4 - r.val) = c - r := by decide
  rw [invShiftRows, cell_blockOf, hcol]

@[simp] theorem cell_addRoundKey (w : Vector Word 60) (n : Fin 15) (m : Block) (r c : Fin 4) :
    cell (addRoundKey w n m) r c = cell m r c ^^^ byteOf (roundKeyWord w n c) r :=
  cell_blockOf _ r c

/-! ## MixColumns as a product of matrices -/

/-- `fmul_one` with the literal as `simp` writes it; so for `fmul_zero`. -/
@[simp] theorem fmul_one_ofNat (a : Byte) : fmul a 1#8 = a := fmul_one a

@[simp] theorem fmul_zero_ofNat (a : Byte) : fmul a 0#8 = 0#8 := fmul_zero a

/-- The product of two 4x4 matrices over the field. -/
def blockMul (k m : Block) : Block :=
  blockOf fun r c =>
    fmul (cell m 0 c) (cell k r 0) ^^^ fmul (cell m 1 c) (cell k r 1) ^^^ fmul (cell m 2 c) (cell k r 2) ^^^
      fmul (cell m 3 c) (cell k r 3)

/-- The unit of `blockMul`. -/
def identityMatrix : Block := #v[#v[1, 0, 0, 0], #v[0, 1, 0, 0], #v[0, 0, 1, 0], #v[0, 0, 0, 1]]

/-- The matrix of MixCol (R191). -/
def mixMatrix : Block := #v[#v[2, 3, 1, 1], #v[1, 2, 3, 1], #v[1, 1, 2, 3], #v[3, 1, 1, 2]]

/-- The matrix of InvMixCol (R192). -/
def invMixMatrix : Block := #v[#v[14, 11, 13, 9], #v[9, 14, 11, 13], #v[13, 9, 14, 11], #v[11, 13, 9, 14]]

theorem cell_blockMul (k m : Block) (r c : Fin 4) : cell (blockMul k m) r c =
    fmul (cell m 0 c) (cell k r 0) ^^^ fmul (cell m 1 c) (cell k r 1) ^^^ fmul (cell m 2 c) (cell k r 2) ^^^
      fmul (cell m 3 c) (cell k r 3) :=
  cell_blockOf _ r c

/-- A cell of either side is the xor of the same sixteen products of three factors. -/
theorem blockMul_assoc (k l m : Block) : blockMul (blockMul k l) m = blockMul k (blockMul l m) := by
  refine block_ext fun r c => ?_
  simp only [cell_blockMul, fmul_xor_left, fmul_xor_right, fmul_assoc]
  ac_rfl

theorem identityMatrix_blockMul (m : Block) : blockMul identityMatrix m = m := by
  refine block_ext fun r c => ?_
  rw [cell_blockMul]
  fin_cases r <;> simp [identityMatrix, cell]

theorem invMixMatrix_blockMul_mixMatrix : blockMul invMixMatrix mixMatrix = identityMatrix := by decide

theorem mixMatrix_blockMul_invMixMatrix : blockMul mixMatrix invMixMatrix = identityMatrix := by decide

theorem mixColumns_eq_blockMul (m : Block) : mixColumns m = blockMul mixMatrix m := by
  refine block_ext fun r c => ?_
  rw [mixColumns, cell_blockOf, cell_blockMul]
  fin_cases r <;> simp [mixCol, mixMatrix, gmul_eq_fmul, constValue, cell]

theorem invMixColumns_eq_blockMul (m : Block) : invMixColumns m = blockMul invMixMatrix m := by
  refine block_ext fun r c => ?_
  rw [invMixColumns, cell_blockOf, cell_blockMul]
  fin_cases r <;> simp [invMixCol, invMixMatrix, gmul_eq_fmul, constValue, cell]

/-! ## What undoes what (R200) -/

@[simp] theorem invShiftRows_shiftRows (m : Block) : invShiftRows (shiftRows m) = m :=
  block_ext fun r c => by rw [cell_invShiftRows, cell_shiftRows, sub_add_cancel]

@[simp] theorem shiftRows_invShiftRows (m : Block) : shiftRows (invShiftRows m) = m :=
  block_ext fun r c => by rw [cell_shiftRows, cell_invShiftRows, add_sub_cancel_right]

@[simp] theorem invMixColumns_mixColumns (m : Block) : invMixColumns (mixColumns m) = m := by
  rw [mixColumns_eq_blockMul, invMixColumns_eq_blockMul, ← blockMul_assoc, invMixMatrix_blockMul_mixMatrix,
    identityMatrix_blockMul]

@[simp] theorem mixColumns_invMixColumns (m : Block) : mixColumns (invMixColumns m) = m := by
  rw [mixColumns_eq_blockMul, invMixColumns_eq_blockMul, ← blockMul_assoc, mixMatrix_blockMul_invMixMatrix,
    identityMatrix_blockMul]

@[simp] theorem subBytes_invSboxTable_genSbox (m : Block) : subBytes invSboxTable (subBytes genSbox m) = m :=
  block_ext fun r c => by rw [cell_subBytes, cell_subBytes, look_invSboxTable_look_genSbox]

@[simp] theorem subBytes_genSbox_invSboxTable (m : Block) : subBytes genSbox (subBytes invSboxTable m) = m :=
  block_ext fun r c => by rw [cell_subBytes, cell_subBytes, look_genSbox_look_invSboxTable]

@[simp] theorem addRoundKey_addRoundKey (w : Vector Word 60) (n : Fin 15) (m : Block) :
    addRoundKey w n (addRoundKey w n m) = m :=
  block_ext fun r c => by
    rw [cell_addRoundKey, cell_addRoundKey, BitVec.xor_assoc, BitVec.xor_self, BitVec.xor_zero]

@[simp] theorem unloadBlock_loadBlock (d : Vector Word 4) : unloadBlock (loadBlock d) = d :=
  Vector.ext fun c hc => (unloadBlock_getElem (loadBlock d) ⟨c, hc⟩).trans (by simp)

/-- Settles O54: the pairs of the list of R200. -/
theorem transformsRoundTrip : Obligations.TransformsRoundTrip :=
  ⟨fun m => ⟨invShiftRows_shiftRows m, shiftRows_invShiftRows m⟩,
    fun m => ⟨invMixColumns_mixColumns m, mixColumns_invMixColumns m⟩,
    fun m => ⟨subBytes_invSboxTable_genSbox m, subBytes_genSbox_invSboxTable m⟩,
    addRoundKey_addRoundKey, unloadBlock_loadBlock⟩

end Sys2Proof.Machine

/-! SUPPORT. The single-transform commands (42_round_transforms.md R182 to R199): the run of a command whose body is one
transform, and the cells each of them ends with. -/

namespace Sys2Proof.Machine

/-! ## A transform as a micro-step -/

/-- The micro-steps that compute S or DOUT: those of 42_round_transforms.md. -/
def MicroOp.isTransform : MicroOp → Bool
  | .load | .ark _ | .sb | .sr | .mc | .isb | .isr | .imc | .unload => true
  | .genFwd | .genInv | .kexp _ | .prim => false

/-- FSM.ROUND shows the round number of a micro-step that carries one (43_driver.md R228). -/
def showRound (r : Option (BitVec 4)) (s : State) : State :=
  { s with fsm := { s.fsm with round := r.getD s.fsm.round } }

/-- A transform does not depend on what acceptance writes and leaves it as it is. -/
theorem perform_acceptedWith {m : MicroOp} (h : m.isTransform = true) (f : CmdFields) (q : List MicroStep) (p : Phase)
    (s : State) : perform m (setPhase p (acceptedWith f q s)) = setPhase p (acceptedWith f q (perform m s)) := by
  cases m with
  | genFwd | genInv | kexp | prim => cases h
  | _ => rfl

/-- ISB is the only transform that reads INV_SBOX (R229). -/
theorem readsInverse_of_isTransform {m : MicroOp} {s : State} (h : m.isTransform = true)
    (hinv : m = .isb → s.status.invValid = true) : readsInverse m s = false ∨ s.status.invValid = true := by
  cases m with
  | prim => cases h
  | isb => exact .inr (hinv rfl)
  | _ => exact .inl rfl

/-- A transform at the head of the queue is performed, with its round number shown, and taken from the queue. -/
theorem drain_transform {f : CmdFields} {m : MicroStep} {rest : List MicroStep} {s : State}
    (hm : m.op.isTransform = true) (hinv : m.op = .isb → s.status.invValid = true) :
    drain (acceptedWith f (m :: rest) s) = drain (acceptedWith f rest (perform m.op (showRound m.round s))) := by
  have hshow : showStep m (acceptedWith f (m :: rest) s) =
      setPhase (phaseOf m.op) (acceptedWith f (m :: rest) (showRound m.round s)) :=
    showStep_fsm _ _
  have hstep : engineStep (acceptedWith f (m :: rest) s) =
      finishStep rest (setPhase (phaseOf m.op) (acceptedWith f (m :: rest) (perform m.op (showRound m.round s)))) := by
    rw [engineStep_performs (s := acceptedWith f (m :: rest) s) rfl (readsInverse_of_isTransform hm hinv), hshow,
      perform_acceptedWith hm]
  rw [drain_step rfl (by rw [hstep, finishStep_eq]), hstep, drain_finishStep]

/-- A command whose body is one transform: the state it ends in, the tables it needs being generated. -/
theorem drain_single_transform {i : Instr} {m : MicroStep} {s : State} (hop : i.fields.op ≠ opExpandKey)
    (hm : m.op.isTransform = true) (hinv : m.op = .isb → s.status.invValid = true) :
    drain (acceptedWith i.fields [m] s) = completed i (perform m.op (showRound m.round s)) := by
  rw [drain_transform hm hinv, drain_acceptedWith_nil hop]

/-! ## The commands -/

/-- Settles O36: LOAD as the body. -/
theorem loadStateResult : Obligations.LoadStateResult := fun s hidle =>
  ⟨_, loadBlock s.din, exec_of_accepted hidle rfl,
    drain_single_transform (i := .loadState) (m := plainStep .load) (by decide) rfl nofun, cell_loadBlock s.din⟩

/-- Settles O37: UNLOAD as the body. -/
theorem unloadStateResult : Obligations.UnloadStateResult := fun s hidle =>
  ⟨_, unloadBlock s.mat, exec_of_accepted hidle rfl,
    drain_single_transform (i := .unloadState) (m := plainStep .unload) (by decide) rfl nofun,
    unloadBlock_getElem s.mat⟩

/-- Settles O38: SB finds the forward table generated. -/
theorem subBytesResult : Obligations.SubBytesResult := by
  intro s htables hidle
  obtain ⟨t, hexec, hdrain⟩ := exec_drain_withNeeded (i := .subBytes) htables hidle rfl
  have hbody (u : State) :
      drain (acceptedWith Instr.subBytes.fields [plainStep .sb] u) = completed .subBytes (stepSb u) :=
    drain_single_transform (i := .subBytes) (m := plainStep .sb) (by decide) rfl nofun
  refine ⟨t, subBytes genSbox s.mat, hexec, hdrain.trans ((hbody (withSbox s)).trans ?_),
    cell_subBytes genSbox s.mat⟩
  simp only [completed, stepSb, setMat, withSbox]

/-- Settles O39: ISB finds the inverse table generated. -/
theorem invSubBytesResult : Obligations.InvSubBytesResult := by
  intro s htables hidle
  obtain ⟨t, hexec, hdrain⟩ := exec_drain_withNeeded (i := .invSubBytes) htables hidle rfl
  have hbody (u : State) (hv : u.status.invValid = true) :
      drain (acceptedWith Instr.invSubBytes.fields [plainStep .isb] u) = completed .invSubBytes (stepIsb u) :=
    drain_single_transform (i := .invSubBytes) (m := plainStep .isb) (by decide) rfl fun _ => hv
  refine ⟨t, subBytes invSboxTable s.mat, hexec, hdrain.trans ((hbody (withTables s) rfl).trans ?_),
    cell_subBytes invSboxTable s.mat⟩
  simp only [completed, stepIsb, setMat, withTables]

/-- Settles O40: SR as the body. -/
theorem shiftRowsResult : Obligations.ShiftRowsResult := by
  intro s hidle
  refine ⟨_, shiftRows s.mat, exec_of_accepted hidle rfl,
    drain_single_transform (i := .shiftRows) (m := plainStep .sr) (by decide) rfl nofun, fun r c c' h => ?_⟩
  have hcol : c' = c + r := Fin.ext (h.trans (Fin.val_add c r).symm)
  rw [cell_shiftRows, hcol]

/-- Settles O41: ISR as the body. -/
theorem invShiftRowsResult : Obligations.InvShiftRowsResult := by
  intro s hidle
  refine ⟨_, invShiftRows s.mat, exec_of_accepted hidle rfl,
    drain_single_transform (i := .invShiftRows) (m := plainStep .isr) (by decide) rfl nofun, fun r c c' h => ?_⟩
  have hcol : c' = Fin.ofNat 4 (c.val + 4 - r.val) := Fin.ext h
  rw [invShiftRows, cell_blockOf, hcol]

/-- Settles O42: MC as the body. -/
theorem mixColumnsResult : Obligations.MixColumnsResult := by
  intro s hidle
  refine ⟨_, mixColumns s.mat, exec_of_accepted hidle rfl,
    drain_single_transform (i := .mixColumns) (m := plainStep .mc) (by decide) rfl nofun, fun c => ?_⟩
  simp only [mixColumns_eq_blockMul, cell_blockMul]
  simp [mixMatrix, cell]

/-- Settles O43: IMC as the body. -/
theorem invMixColumnsResult : Obligations.InvMixColumnsResult := by
  intro s hidle
  refine ⟨_, invMixColumns s.mat, exec_of_accepted hidle rfl,
    drain_single_transform (i := .invMixColumns) (m := plainStep .imc) (by decide) rfl nofun, fun c => ?_⟩
  rw [invMixColumns_eq_blockMul]
  exact ⟨cell_blockMul .., cell_blockMul .., cell_blockMul .., cell_blockMul ..⟩

/-- Settles O44: ARK(RND) as the body, which carries the round number RND. -/
theorem addRoundKeyResult : Obligations.AddRoundKeyResult := by
  intro rnd s hrnd hkey hidle
  have hcheck : acceptanceError s (.addRoundKey rnd) = none := by
    simp [acceptanceError, hkey, hrnd]
  refine ⟨_, addRoundKey s.w (Fin.ofNat 15 rnd.toNat) s.mat, exec_of_accepted hidle hcheck,
    drain_single_transform (i := .addRoundKey rnd) (m := ⟨.ark (Fin.ofNat 15 rnd.toNat), some rnd⟩)
      (by decide : opAddRoundKey ≠ opExpandKey) rfl nofun, fun r c i hi => ?_⟩
  have hword : roundKeyWord s.w (Fin.ofNat 15 rnd.toNat) c = s.w[i] := by
    simp [roundKeyWord, hi, Nat.mod_eq_of_lt (show rnd.toNat < 15 by omega)]
  rw [cell_addRoundKey, hword]

end Sys2Proof.Machine

/-! SUPPORT. Which agent moves (43_driver.md R220, R225), the defensive stop (R229), and the presentation of a command
(R222 to R226). -/

namespace Sys2Proof.Machine

/-! ## The step and its agents -/

/-- Settles O8: the write presents its value, which decodes. -/
theorem stepRunsTheDecodedCommand : Obligations.StepRunsTheDecodedCommand := by
  intro s rest w i ⟨d, hh, hd⟩ hdec
  have hw : commandWord (.write (base s + 0x040) 4 w) (setHost rest s) = some w := commandWord_write_cmd _ w
  simp only [step, nextTurn_host hh hd, hw, hdec]
  rfl

/-- With no host operation to come a step is one of the engine, which does nothing while Q is empty (R225, R280). -/
theorem step_of_host_nil {s : State} (hh : s.host = []) : step s = .next (engineStep s) := by
  cases hq : s.queue with
  | nil => simp [step, nextTurn, hh, hq]
  | cons m q => simp [step, nextTurn, hh, hq]

theorem engineStep_host (s : State) : (engineStep s).host = s.host := by
  cases hq : s.queue with
  | nil => rw [engineStep_idle hq]
  | cons m rest =>
    obtain ⟨-, -, -, -, -, hhost, -⟩ := microStepFrame s m rest hq
    exact hhost

/-- Settles O9: `step_delayed` and `step_of_host_nil`. -/
theorem engineMovesWhileQueueIsNonEmpty : Obligations.EngineMovesWhileQueueIsNonEmpty := by
  refine ⟨fun s d op rest hh hq => step_delayed hh hq, fun s hh _ => step_of_host_nil hh, fun s hh hq => ?_⟩
  rw [step_of_host_nil hh, engineStep_idle hq]

/-- Settles O10, by induction on the number of steps. -/
theorem runWithoutHostIsTheEngine : Obligations.RunWithoutHostIsTheEngine := by
  intro n
  induction n with
  | zero => exact fun s _ => rfl
  | succ n ih =>
    intro s hh
    rw [run_succ (step_of_host_nil hh), engineRun_succ]
    exact ih _ ((engineStep_host s).trans hh)

/-- Settles O12: the stop as one record; with the invariant a micro-step that reads INV_SBOX finds it valid. -/
theorem uninitializedInverseStopsTheCommand : Obligations.UninitializedInverseStopsTheCommand := by
  intro s m rest hq hm
  have hr : readsInverse m.op s = true := (readsInverse_iff m.op s).mpr hm
  refine ⟨fun hv => ?_, fun hinv => ?_⟩
  · rw [engineStep_stops hq hr hv, defensiveStop_eq]
  · have hready := hinv.ready
    rw [hq] at hready
    exact invValid_of_readsInverse hready hr

/-! ## The presentation of a command -/

theorem op_eq_expandKey_iff (i : Instr) : i.fields.op = opExpandKey ↔ i = .expandKey := by
  cases i <;> simp [Instr.fields] <;> decide

theorem needsFwd_iff (i : Instr) : needsFwd i.fields.op = true ↔ inNeedFwd i := by
  cases i <;> simp [inNeedFwd, Instr.fields] <;> decide

theorem needsInv_iff (i : Instr) : needsInv i.fields.op = true ↔ inNeedInv i := by
  cases i <;> simp [inNeedInv, Instr.fields] <;> decide

/-- The model's table generation is the one the rule asks for (R226). -/
theorem isTablePrefix_genPrefix (i : Instr) (t : Status) : IsTablePrefix i t (genPrefix i.fields.op t) := by
  refine ⟨_, _, rfl, ?_⟩
  simp only [← needsFwd_iff, ← needsInv_iff, plainStep]
  grind

/-- Settles O26: acceptance as one record; EXPAND_KEY, which clears KEY_VALID, always has a body. -/
theorem acceptedCommandQueuesItsMicroSteps : Obligations.AcceptedCommandQueuesItsMicroSteps := by
  intro i s hidle hcheck
  have hkey : (i.fields.op != opExpandKey) = (i != .expandKey) := by
    rw [Bool.eq_iff_iff, bne_iff_ne, bne_iff_ne, ne_eq, ne_eq, op_eq_expandKey_iff]
  have hexec : exec i s = .next (accept i.fields (bodyOf i) s) := by
    rw [exec_eq_presentCommand, hcheck, presentCommand_accepted hidle]
  refine ⟨_, isTablePrefix_genPrefix i s.status, fun hq => ?_, fun hq => ?_⟩
  · rw [hexec, accept_starts hq, hkey]
  · have hi : (i != .expandKey) = true := by
      rw [bne_iff_ne]
      rintro rfl
      exact absurd (List.append_eq_nil_iff.mp hq).2 (by decide)
    rw [hexec, accept_completes hq, hkey, hi, Bool.and_true]

/-- Settles O29: a dropped and a rejected word write STATUS and FSM.OP; acceptance leaves KEY_VALID too, unless the
command is EXPAND_KEY. -/
theorem presentationFrame : Obligations.PresentationFrame := by
  intro i s t h
  rw [exec_eq_presentCommand] at h
  rcases presentCommand_cases h with ⟨-, rfl⟩ | ⟨-, e, -, rfl⟩ | ⟨-, -, rfl⟩
  · simp [dropWrite, statusDropped]
  · simp [cmdError, statusRejected]
  · rw [accept_eq_acceptedWith]
    simp +contextual [acceptedWith, op_eq_expandKey_iff]

/-- Settles O31: PRIM of NOP has no effect, so it only completes the command. -/
theorem nopCompletes : Obligations.NopCompletes := by
  intro s hidle
  refine ⟨_, exec_of_accepted (i := .nop) hidle rfl, ?_⟩
  have hbody : drain (acceptedWith Instr.nop.fields [plainStep .prim] s) = drain (acceptedWith Instr.nop.fields [] s) :=
    drain_acceptedWith_cons (.inl rfl) fun _ => rfl
  exact hbody.trans (drain_acceptedWith_nil (by decide) s)

end Sys2Proof.Machine

/-! SUPPORT. ENCRYPT_BLOCK and DECRYPT_BLOCK: the two sequences of micro-steps (43_driver.md R230 to R232), that they
compute the block functions of R235, and that these undo each other (R237). -/

namespace Sys2Proof.Machine

/-! ## The sequences -/

/-- Settles O53: the two lists, row by row. -/
theorem sequencesFollowTheStateMachine : Obligations.SequencesFollowTheStateMachine :=
  ⟨rfl, rfl, rfl, rfl, rfl, rfl, by decide, by decide⟩

/-! ## The run of a list of transforms -/

/-- The state after the micro-steps of `q`, with their round numbers shown. -/
def performAll (q : List MicroStep) (s : State) : State :=
  q.foldl (fun t m => perform m.op (showRound m.round t)) s

theorem performAll_append (q q' : List MicroStep) (s : State) :
    performAll (q ++ q') s = performAll q' (performAll q s) :=
  List.foldl_append

/-- A list of transforms as the body of a command: the state the command ends in. -/
theorem drain_transforms {i : Instr} {q : List MicroStep} {s : State} (hop : i.fields.op ≠ opExpandKey)
    (hq : ∀ m ∈ q, m.op.isTransform = true) (hinv : s.status.invValid = true ∨ ∀ m ∈ q, m.op ≠ .isb) :
    drain (acceptedWith i.fields q s) = completed i (performAll q s) := by
  induction q generalizing s with
  | nil => exact drain_acceptedWith_nil hop s
  | cons m q ih =>
    obtain ⟨hm, hq⟩ := List.forall_mem_cons.mp hq
    have hisb : m.op = .isb → s.status.invValid = true := fun h =>
      hinv.resolve_right fun hn => hn m List.mem_cons_self h
    have hgen : m.op ≠ .genInv := fun h => by simp [h, MicroOp.isTransform] at hm
    obtain ⟨-, -, -, hframe, -⟩ := perform_data_frame m.op (showRound m.round s)
    rw [drain_transform hm hisb, ih hq]
    · rfl
    · rw [(hframe hgen).2]
      exact hinv.imp_right fun hn n hmem => hn n (List.mem_cons_of_mem m hmem)

/-- The state with the matrix `m` and the round number `r`. -/
def withMatRound (m : Block) (r : BitVec 4) (s : State) : State := setMat m (setRound r s)

/-- What a micro-step makes of the state matrix `m` (R224); DIN, W and the tables are those of `s`. -/
def matrixStep (s : State) (m : Block) : MicroOp → Block
  | .load => loadBlock s.din
  | .ark n => addRoundKey s.w n m
  | .sb => subBytes s.sbox m
  | .sr => shiftRows m
  | .mc => mixColumns m
  | .isb => subBytes s.invSbox m
  | .isr => invShiftRows m
  | .imc => invMixColumns m
  | .genFwd | .genInv | .unload | .kexp _ | .prim => m

/-- The state matrix after the micro-steps of `q`. -/
def matrixAfter (q : List MicroStep) (s : State) : Block := q.foldl (fun m step => matrixStep s m step.op) s.mat

/-- The transforms but UNLOAD: the micro-steps that write S (42_round_transforms.md R180 to R195). -/
def MicroOp.writesMatrix (m : MicroOp) : Bool := m.isTransform && m != .unload

theorem perform_withMatRound {m : MicroOp} (h : m.writesMatrix = true) (a : Block) (r : BitVec 4) (s : State) :
    perform m (withMatRound a r s) = withMatRound (matrixStep s a m) r s := by
  cases m with
  | genFwd | genInv | unload | kexp | prim => cases h
  | _ => rfl

/-- Micro-steps that write S write S and FSM.ROUND alone. -/
theorem performAll_writesMatrix {q : List MicroStep} {s : State} (hq : ∀ m ∈ q, m.op.writesMatrix = true) :
    ∃ r, performAll q s = withMatRound (matrixAfter q s) r s := by
  induction q using List.reverseRecOn with
  | nil => exact ⟨s.fsm.round, rfl⟩
  | append_singleton q m ih =>
    obtain ⟨r, hr⟩ := ih fun n hn => hq n (List.mem_append_left _ hn)
    have hm : m.op.writesMatrix = true := hq m (by simp)
    have hshow : showRound m.round (withMatRound (matrixAfter q s) r s) =
        withMatRound (matrixAfter q s) (m.round.getD r) s := rfl
    have hlast : matrixAfter (q ++ [m]) s = matrixStep s (matrixAfter q s) m.op := List.foldl_append
    refine ⟨m.round.getD r, ?_⟩
    rw [performAll_append, hr, hlast, ← perform_withMatRound hm, ← hshow]
    rfl

/-- A list of such micro-steps with UNLOAD at its end unloads the matrix it leaves in S. -/
theorem performAll_unload_last {q : List MicroStep} {s : State} (r : Nat) (hq : ∀ m ∈ q, m.op.writesMatrix = true) :
    performAll (q ++ [roundStep r .unload]) s =
      setDout (unloadBlock (matrixAfter q s)) (withMatRound (matrixAfter q s) (BitVec.ofNat 4 r) s) := by
  obtain ⟨r', hr'⟩ := performAll_writesMatrix hq
  rw [performAll_append, hr']
  rfl

/-- UNLOAD leaves S as it is. -/
theorem matrixAfter_unload_last (q : List MicroStep) (r : Nat) (s : State) :
    matrixAfter (q ++ [roundStep r .unload]) s = matrixAfter q s :=
  List.foldl_append

theorem matrixAfter_encSeq {s : State} (h : s.sbox = genSbox) : matrixAfter encSeq s = encryptMat s.din s.w := by
  simp only [matrixAfter, encSeq, List.foldl_append, List.foldl_flatMap, encryptMat, encMiddle, ← h]
  rfl

theorem matrixAfter_decSeq {s : State} (h : s.invSbox = invSboxTable) :
    matrixAfter decSeq s = decryptMat s.din s.w := by
  simp only [matrixAfter, decSeq, List.foldl_append, List.foldl_flatMap, decryptMat, decMiddle, ← h]
  rfl

/-- The transforms of EncSeq leave the matrix of Encrypt in S and unload it (R230, R235). -/
theorem performAll_encSeq {s : State} (h : s.sbox = genSbox) :
    performAll encSeq s = setDout (encrypt s.din s.w) (withMatRound (encryptMat s.din s.w) 14 s) := by
  have hsplit : encSeq = encSeq.dropLast ++ [roundStep 14 .unload] := by decide
  have hmat := matrixAfter_encSeq h
  rw [hsplit, matrixAfter_unload_last] at hmat
  rw [hsplit, performAll_unload_last 14 (by decide), hmat]
  rfl

/-- The transforms of DecSeq leave the matrix of Decrypt in S and unload it (R231, R235). -/
theorem performAll_decSeq {s : State} (h : s.invSbox = invSboxTable) :
    performAll decSeq s = setDout (decrypt s.din s.w) (withMatRound (decryptMat s.din s.w) 0 s) := by
  have hsplit : decSeq = decSeq.dropLast ++ [roundStep 0 .unload] := by decide
  have hmat := matrixAfter_decSeq h
  rw [hsplit, matrixAfter_unload_last] at hmat
  rw [hsplit, performAll_unload_last 0 (by decide), hmat]
  rfl

/-! ## The commands -/

/-- Every state matrix is the one of the block it unloads to (42_round_transforms.md R181, R183). -/
@[simp] theorem loadBlock_unloadBlock (m : Block) : loadBlock (unloadBlock m) = m := by
  refine block_ext fun r c => ?_
  rw [cell_loadBlock, unloadBlock_getElem]
  fin_cases r
  · exact byteOf_pack_zero ..
  · exact byteOf_pack_one ..
  · exact byteOf_pack_two ..
  · exact byteOf_pack_three ..

theorem loadBlock_encrypt (b : Vector Word 4) (w : Vector Word 60) : loadBlock (encrypt b w) = encryptMat b w :=
  loadBlock_unloadBlock _

theorem loadBlock_decrypt (b : Vector Word 4) (w : Vector Word 60) : loadBlock (decrypt b w) = decryptMat b w :=
  loadBlock_unloadBlock _

/-- Settles O46: EncSeq finds the forward table generated. -/
theorem encryptBlockResult : Obligations.EncryptBlockResult := by
  intro s htables hidle hkey
  have hcheck : acceptanceError s .encryptBlock = none := by simp [acceptanceError, hkey]
  obtain ⟨t, hexec, hdrain⟩ := exec_drain_withNeeded htables hidle hcheck
  have hbody : drain (acceptedWith Instr.encryptBlock.fields encSeq (withSbox s)) =
      completed .encryptBlock (performAll encSeq (withSbox s)) :=
    drain_transforms (by decide) (by decide) (.inr (by decide))
  refine ⟨t, hexec, hdrain.trans (hbody.trans ?_)⟩
  rw [performAll_encSeq (withSbox_sbox s), loadBlock_encrypt]
  simp only [completed, withSbox, setDout, withMatRound, setMat, setRound]

/-- Settles O47: DecSeq finds the inverse table generated. -/
theorem decryptBlockResult : Obligations.DecryptBlockResult := by
  intro s htables hidle hkey
  have hcheck : acceptanceError s .decryptBlock = none := by simp [acceptanceError, hkey]
  obtain ⟨t, hexec, hdrain⟩ := exec_drain_withNeeded htables hidle hcheck
  have hbody : drain (acceptedWith Instr.decryptBlock.fields decSeq (withTables s)) =
      completed .decryptBlock (performAll decSeq (withTables s)) :=
    drain_transforms (by decide) (by decide) (.inl rfl)
  refine ⟨t, hexec, hdrain.trans (hbody.trans ?_)⟩
  rw [performAll_decSeq (withTables_invSbox s), loadBlock_decrypt]
  simp only [completed, withTables, setDout, withMatRound, setMat, setRound]

/-! ## What undoes what (R237) -/

/-- Steps undone one by one, the last first: `g` is what stands between a step and the one that undoes it. -/
theorem foldl_reverse_foldl {α β : Type} {e d : α → β → α} {g : α → α} (h : ∀ a b, d (g (e a b)) b = g a)
    (l : List β) (a : α) : l.reverse.foldl d (g (l.foldl e a)) = g a := by
  induction l generalizing a with
  | nil => rfl
  | cons b l ih => simp only [List.reverse_cons, List.foldl_append, List.foldl_cons, List.foldl_nil, ih, h]

/-- Group r of Decrypt undoes round r of Encrypt up to a SubBytes and a ShiftRows, which the next group begins with. -/
theorem decMiddle_encMiddle (w : Vector Word 60) (m : Block) :
    decMiddle w (shiftRows (subBytes genSbox (encMiddle w m))) = shiftRows (subBytes genSbox m) :=
  foldl_reverse_foldl (g := fun m => shiftRows (subBytes genSbox m)) (fun _ _ => by simp) middleRounds m

/-- The same with the inverse transforms between them. -/
theorem encMiddle_decMiddle (w : Vector Word 60) (m : Block) :
    encMiddle w (subBytes invSboxTable (invShiftRows (decMiddle w m))) = subBytes invSboxTable (invShiftRows m) := by
  have h := foldl_reverse_foldl (g := fun m => subBytes invSboxTable (invShiftRows m))
    (e := fun a r => invMixColumns (addRoundKey w r (subBytes invSboxTable (invShiftRows a))))
    (d := fun a r => addRoundKey w r (mixColumns (shiftRows (subBytes genSbox a)))) (fun _ _ => by simp)
    middleRounds.reverse m
  rwa [List.reverse_reverse] at h

theorem decryptMat_encrypt (b : Vector Word 4) (w : Vector Word 60) : decryptMat (encrypt b w) w = loadBlock b := by
  rw [decryptMat, loadBlock_encrypt, encryptMat, addRoundKey_addRoundKey, decMiddle_encMiddle,
    invShiftRows_shiftRows, subBytes_invSboxTable_genSbox, addRoundKey_addRoundKey]

theorem encryptMat_decrypt (b : Vector Word 4) (w : Vector Word 60) : encryptMat (decrypt b w) w = loadBlock b := by
  rw [encryptMat, loadBlock_decrypt, decryptMat, addRoundKey_addRoundKey, encMiddle_decMiddle,
    subBytes_genSbox_invSboxTable, shiftRows_invShiftRows, addRoundKey_addRoundKey]

/-- Settles O55: the state matrix each of them ends with is the one of the block. -/
theorem decryptUndoesEncrypt : Obligations.DecryptUndoesEncrypt := by
  intro b w
  refine ⟨?_, ?_⟩
  · rw [decrypt, decryptMat_encrypt, unloadBlock_loadBlock]
  · rw [encrypt, encryptMat_decrypt, unloadBlock_loadBlock]

/-- Settles O56: DECRYPT_BLOCK finds the state ENCRYPT_BLOCK ends in idle, with KEY_VALID = 1 and W as it was. -/
theorem machineDecryptsWhatItEncrypts : Obligations.MachineDecryptsWhatItEncrypts := by
  intro s htables hidle hkey
  obtain ⟨t, hexec, hdrain⟩ := encryptBlockResult s htables hidle hkey
  have htables' : TablesOk { drain t with din := (drain t).dout } := by
    simp only [hdrain, withSbox, completed]
    exact ⟨fun _ => rfl, fun _ => rfl, htables.inv_content⟩
  obtain ⟨u, hexec', hdrain'⟩ := decryptBlockResult { drain t with din := (drain t).dout } htables'
    (by rw [hdrain]; rfl) (by rw [hdrain]; exact hkey)
  refine ⟨t, u, hexec, hexec', ?_⟩
  calc (drain u).dout
    _ = decrypt (drain t).dout (drain t).w := congrArg State.dout hdrain'
    _ = decrypt (encrypt s.din s.w) s.w := by simp only [hdrain, completed, withSbox]
    _ = s.din := (decryptUndoesEncrypt s.din s.w).1

end Sys2Proof.Machine

/-! SUPPORT. A rejected command word (60_exceptions.md R264, R266): the record of its effects, and the step that writes
a word that does not decode. -/

namespace Sys2Proof.Machine

/-- Raising the error of a command writes ERR, ERR_STICKY, DONE and FSM.OP (R266). -/
theorem cmdError_eq_rejected (e : ErrorCode) (op : BitVec 5) (s : State) : cmdError e op s = rejected e op s := rfl

/-- A write of a word that does not decode, to an idle core (43_driver.md R222, 60_exceptions.md R264). -/
theorem step_illegal_idle {s : State} {op : HostOp} {rest : List HostEvent} {w : Word} (hop : NextOp s op rest)
    (hw : commandWord op (setHost rest s) = some w) (hill : IllegalWord w) (hidle : s.status.busy = false) :
    step s = .next (cmdError .illegalCommand (opField w) (setHost rest s)) := by
  obtain ⟨d, hh, hd⟩ := hop
  obtain ⟨e, hdec⟩ := (decodeRefusesExactlyIllegalWords w).1 hill
  simp [step, nextTurn_host hh hd, hw, hdec, presentIllegal, hidle]

/-- Settles O27: a failing check by `presentCommand_rejected`, a word that does not decode by `step_illegal_idle`. -/
theorem rejectedWordChangesOnlyErrorState : Obligations.RejectedWordChangesOnlyErrorState := by
  refine ⟨fun i s e hidle hcheck => ?_, fun s rest w hop hidle hill => ?_⟩
  · rw [exec_eq_presentCommand, hcheck, presentCommand_rejected hidle, cmdError_eq_rejected]
  · rw [step_illegal_idle hop (commandWord_write_cmd _ w) hill hidle, cmdError_eq_rejected]
    rfl

end Sys2Proof.Machine

/-! SUPPORT. Reset as an event and what only reset clears (70_reset_and_hazards.md R300 to R303), and the number of
micro-steps of a command (R312). -/

namespace Sys2Proof.Machine

/-! ## Reset -/

/-- The reset event, whether a command runs or not (R300, R301). -/
theorem step_reset {s : State} {rest : List HostEvent} (hop : NextOp s .reset rest) :
    step s = .next (resetCore (setHost rest s)) :=
  step_eq_hostTurn hop rfl

/-- Settles O20: `resetCore` is State.reset but for the tables and the model's own fields. -/
theorem resetEventRestoresResetValues : Obligations.ResetEventRestoresResetValues :=
  fun _ _ hop => ⟨_, _, step_reset hop⟩

/-! ## The flags that only reset clears -/

/-- Each of the four flags of R303 that is 1 in `t` is 1 in `t'`. -/
structure StickyFlagsKept (t t' : Status) : Prop where
  errSticky : t.errSticky = true → t'.errSticky = true
  ovr : t.ovr = true → t'.ovr = true
  sboxValid : t.sboxValid = true → t'.sboxValid = true
  invValid : t.invValid = true → t'.invValid = true

theorem StickyFlagsKept.refl (t : Status) : StickyFlagsKept t t := ⟨id, id, id, id⟩

/-- A micro-step writes the table flags only, and only to 1 (10_state.md R34, R35). -/
theorem stickyFlagsKept_perform (m : MicroOp) (s : State) : StickyFlagsKept s.status (perform m s).status := by
  obtain ⟨-, -, -, -, -, -, -, -, -, -, -, herr, hovr, -⟩ := perform_frame m s
  obtain ⟨-, -, hfwd, hinv, -⟩ := perform_data_frame m s
  refine ⟨herr.trans, hovr.trans, ?_, ?_⟩
  · by_cases hm : m = .genFwd
    · subst hm
      exact fun _ => rfl
    · exact (hfwd hm).2.trans
  · by_cases hm : m = .genInv
    · subst hm
      exact fun _ => rfl
    · exact (hinv hm).2.trans

theorem stickyFlagsKept_engineStep (s : State) : StickyFlagsKept s.status (engineStep s).status := by
  cases hq : s.queue with
  | nil =>
    rw [engineStep_idle hq]
    exact .refl _
  | cons m rest =>
    rcases engineStep_cases hq with he | he
    · rw [he, defensiveStop_eq]
      exact ⟨fun _ => rfl, id, id, id⟩
    · obtain ⟨herr, hovr, hsbox, hinv⟩ := stickyFlagsKept_perform m.op (showStep m s)
      rw [he, finishStep_eq]
      rw [showStep_fsm] at *
      exact ⟨herr, hovr, hsbox, hinv⟩

/-- No operation of the host but reset clears one of the flags. -/
theorem HostEffect.stickyFlagsKept {s t : State} {op : HostOp} (h : HostEffect s op t) (hop : op ≠ .reset) :
    StickyFlagsKept s.status t.status := by
  cases h with
  | drops => exact ⟨id, fun _ => rfl, id, id⟩
  | rejects => exact ⟨fun _ => rfl, id, id, id⟩
  | accepts =>
    rw [accept_eq_acceptedWith]
    exact ⟨id, id, id, id⟩
  | resets => exact absurd rfl hop
  | _ => exact .refl _

theorem stickyFlagsKept_of_step {s t : State} (hstep : step s = .next t) (hreset : ∀ rest, ¬ NextOp s .reset rest) :
    StickyFlagsKept s.status t.status := by
  cases stepEffect_of_step hstep with
  | idle => exact .refl _
  | engine h hq => exact stickyFlagsKept_engineStep (setHost h s)
  | @host op rest _ hop heff =>
    refine heff.stickyFlagsKept ?_
    rintro rfl
    exact hreset rest hop

/-- Settles O24: `stickyFlagsKept_of_step`; a table valid before and after the step has the same contents, those its
flag promises under the engine's invariant, which the step keeps. -/
theorem onlyResetClearsStickyFlags : Obligations.OnlyResetClearsStickyFlags := by
  refine ⟨fun s t hstep hreset => ?_, fun s t rest hstep hop => ?_⟩
  · obtain ⟨herr, hovr, hsbox, hinv⟩ := stickyFlagsKept_of_step hstep hreset
    refine ⟨herr, hovr, hsbox, hinv, fun hs hv => ?_, fun hs hv => ?_⟩
    · have ht := (engineInvariantKept s t hs hstep).tables
      exact (ht.sbox_content (hsbox hv)).trans (hs.tables.sbox_content hv).symm
    · have ht := (engineInvariantKept s t hs hstep).tables
      exact (ht.inv_content (hinv hv)).trans (hs.tables.inv_content hv).symm
  · cases (step_reset hop).symm.trans hstep
    exact ⟨rfl, rfl, rfl, rfl⟩

/-! ## The number of micro-steps -/

/-- The length of the table generation: one micro-step for each table the command needs and does not find valid
(43_driver.md R226). -/
theorem length_genPrefix (op : BitVec 5) (t : Status) :
    (genPrefix op t).length =
      (if t.sboxValid then 0 else if needsFwd op || needsInv op then 1 else 0) +
        (if t.invValid then 0 else if needsInv op then 1 else 0) := by
  simp only [genPrefix, List.length_append]
  congr 1
  · cases t.sboxValid <;> cases needsFwd op || needsInv op <;> rfl
  · cases t.invValid <;> cases needsInv op <;> rfl

theorem length_bodyOf (i : Instr) : (bodyOf i).length = (stepCounts i).1 := by
  cases i <;> rfl

/-- The columns of R312's table for the extra steps are the sets NeedFwd and NeedInv (43_driver.md R226). -/
theorem stepCounts_extra (i : Instr) :
    (stepCounts i).2.1 = (if needsFwd i.fields.op || needsInv i.fields.op then 1 else 0) ∧
      (stepCounts i).2.2 = (if needsInv i.fields.op then 1 else 0) := by
  cases i <;> exact ⟨rfl, rfl⟩

/-- Settles O30: the queue of an accepted command is the table generation followed by the body; a rejected one leaves
Q and BUSY as they are. -/
theorem microStepCountIsTabulated : Obligations.MicroStepCountIsTabulated := by
  intro i s hidle hq
  cases hcheck : acceptanceError s i with
  | none =>
    refine ⟨_, exec_of_accepted hidle hcheck, fun _ => ?_, fun h => absurd rfl h⟩
    obtain ⟨hfwd, hinv⟩ := stepCounts_extra i
    calc (genPrefix i.fields.op s.status ++ bodyOf i).length
      _ = (genPrefix i.fields.op s.status).length + (stepCounts i).1 := by rw [List.length_append, length_bodyOf]
      _ = _ := by rw [length_genPrefix, hfwd, hinv, Nat.add_comm, Nat.add_assoc]
  | some e =>
    refine ⟨_, rejectedWordChangesOnlyErrorState.1 i s e hidle hcheck, fun h => ?_, fun _ => ⟨hq, hidle⟩⟩
    cases h

end Sys2Proof.Machine

namespace Sys2Proof.Machine

/-! ## Accesses outside the window -/

/-- Settles O19: the window turns the access away, whichever kind it is, and BASE is the one before the step. -/
theorem accessOutsideWindowFaults : Obligations.AccessOutsideWindowFaults := by
  intro s rest addr bytes v hop hout
  rw [← base_setHost rest s] at hout
  exact step_fault_of_accessOffset hop (accessOffset_outside hout)

end Sys2Proof.Machine
